-- ==== Sys2Proof/Word.lean ====
section
/-!
DEFINITION. Word.lean: the widths of the Y8002 (00_scope.md R7, R13): byte, word, long word, quadruple word, and the
four-bit codes of an encoding. Bit 0 is the least significant bit (00_scope.md R9).
-/

namespace Sys2Proof

/-- A byte, 8 bits (R13). -/
abbrev Byte := BitVec 8

/-- A word, 16 bits: a general register, an address, an instruction word (R7, R13). -/
abbrev Word := BitVec 16

/-- A long (double) word, 32 bits: the contents of a register pair (R13, 10_state.md R23). -/
abbrev Long := BitVec 32

/-- A quadruple word, 64 bits: the contents of a register quadruple (R13, 10_state.md R24). -/
abbrev Quad := BitVec 64

/-- A four-bit field of an instruction word: a register code, a flag mask, a count less one (30_encoding.md R110,
R115). -/
abbrev Nibble := BitVec 4

/-- A four-bit register code (30_encoding.md R110). Whether it names a word, byte, pair or quadruple register is the
instruction's business. -/
abbrev RegCode := BitVec 4

end Sys2Proof
end

