-- ==== Sys2Proof/Config.lean ====
section
/-!
DEFINITION. Config.lean: what a design or a platform fixes (00_scope.md R8), and the FREE VALUES: values that the spec
calls a `draw` (00_scope.md R11, R12) or leaves OPEN. A free value is an `opaque` constant, so that nothing can be
proved about which value it is. A draw is applied to the model's own counter `clock` (State), so that each is fresh,
and to what of the run the environment can have seen, the trace of output events (00_scope.md R14).
-/

namespace Sys2Proof

/-- The two I/O spaces (20_memory.md R60, R61): standard (status 0010) and special (status 0011). -/
inductive IoSpace where
  | std | special
deriving DecidableEq, Repr

/-- The three interrupts (60_exceptions.md R700), told apart by the status of their acknowledge: 0101, 0110, 0111. -/
inductive InterruptKind where
  | nonMaskable | nonVectored | vectored
deriving DecidableEq, Repr

/-- What the environment can observe of a run while it goes on (00_scope.md R14, 92_eei_decisions.md D23). -/
inductive Event where
  /-- an I/O write (20_memory.md R68); a byte stands in the low half of `value` -/
  | ioWrite (space : IoSpace) (port : Word) (bytes : Nat) (value : Word)
  /-- the pin MOB changes to High or Low (47_system.md R596) -/
  | mob (high : Bool)
  /-- an interrupt acknowledge read (60_exceptions.md R713) -/
  | acknowledge (kind : InterruptKind)
deriving DecidableEq, Repr

end Sys2Proof

namespace Sys2Proof.Config

open Sys2Proof

/-- `HAS_NORMAL_MODE` (R8): false in Revision 1, where FCW.SYS is forced to 1. -/
def hasNormalMode : Bool := false

/-- `HAS_EPA` (R8): false in Revision 1, where FCW.EPA is forced to 0 and every EPU opcode takes the Unimplemented
Instruction trap (48_epu.md R621). -/
def hasEpa : Bool := false

/-- The two readings of the sign of a remainder (40_arithmetic.md R225). -/
inductive RemainderSign where
  /-- a non-zero remainder has the sign of the dividend -/
  | dividend
  /-- a non-zero remainder has the sign of the divisor -/
  | divisor
deriving DecidableEq, Repr

/-- `DIV_REM_SIGN` (R8, 92_eei_decisions.md D11): the value the spec gives, `dividend`. DESIGN CHOICE of the spec;
notes/assumptions/8.md. -/
def divRemSign : RemainderSign := .dividend

/-- `TRT_STOP_ON_ZERO` (R8, D14): OPEN in the spec, so a free value here; no proof can use either setting.
notes/assumptions/9.md. -/
opaque trtStopOnZero : Bool

/-- What the byte of memory at an address that nothing has written reads as. The spec gives none (20_memory.md R71).
DESIGN CHOICE, unsafe; notes/assumptions/2.md. -/
def unwrittenByte : Byte := 0x00#8

/-- The value an I/O read returns (a `draw`, 20_memory.md R68, D8): by the clock, the output events so far, the
space, the port and the width in bytes. A byte read uses the low byte. notes/assumptions/5.md. -/
opaque ioRead (clock : Nat) (seen : List Event) (space : IoSpace) (port : Word) (bytes : Nat) : Word

/-- The word read in an interrupt acknowledge (a `draw`, 60_exceptions.md R713, D8): by the clock, the output events so
far and the interrupt acknowledged. notes/assumptions/5.md. -/
opaque acknowledgeWord (clock : Nat) (seen : List Event) (kind : InterruptKind) : Word

/-- The level of the pin MIB, true for High (a `draw`, 47_system.md R596, D22): by the clock, the output events so far
and how many times this instruction has read the pin before. notes/assumptions/5.md. -/
opaque mibLevel (clock : Nat) (seen : List Event) (reading : Nat) : Bool

/-- What DIV leaves in its register pair when the quotient is too large (a `draw`, 40_arithmetic.md R228, D16).
notes/assumptions/6.md. -/
opaque divOverflow (clock : Nat) (dividend : Long) (divisor : Word) : Long

/-- What DIVL leaves in its register quadruple when the quotient is too large (R228, D16). notes/assumptions/6.md. -/
opaque divlOverflow (clock : Nat) (dividend : Quad) (divisor : Long) : Quad

/-- What DAB leaves in its byte register on a combination its table does not list (a `draw`, 40_arithmetic.md R220,
D13). notes/assumptions/7.md. -/
opaque dabByte (clock : Nat) (fcw : Word) (value : Byte) : Byte

/-- What DAB leaves in C on a combination its table does not list (R220, D13). notes/assumptions/7.md. -/
opaque dabCarry (clock : Nat) (fcw : Word) (value : Byte) : Bool

end Sys2Proof.Config
end

