-- ==== Sys2Proof/Syntax.lean ====
section
/-!
DEFINITION. Syntax.lean: the instructions of the Y8002 as syntax, WHOLE. One constructor of `Instr` per mnemonic and
operand shape of spec/opcode_table.json; the rows that differ only in the addressing mode of one operand share a
constructor, and the mode is a constructor of the operand's type. Register fields stay four-bit codes: the spec gives
meanings (and refusals) to codes, 30_encoding.md R110. Fields named d, s, r are those of the encoding tables.
-/

namespace Sys2Proof

/-- The sixteen condition codes, in the order of their codes 0000 to 1111 (30_encoding.md R125). -/
inductive Cond where
  | f | lt | le | ule | ov | mi | z | c | always | ge | gt | ugt | nov | pl | nz | nc
deriving DecidableEq, Repr

/-- The memory operands of the five-mode instructions: indirect register, direct address, index (R132, R133, R134).
Also the addresses of CALL and JP, which name a location and read none. -/
inductive Mem where
  /-- `@Rr` -/
  | ir (r : RegCode)
  /-- `address` -/
  | da (address : Word)
  /-- `address(Rr)` -/
  | x (address : Word) (r : RegCode)
deriving DecidableEq, Repr

/-- A source operand of `n` bits of the five-mode instructions (R138). -/
inductive Src (n : Nat) where
  | reg (s : RegCode)
  | imm (data : BitVec n)
  | mem (m : Mem)
deriving DecidableEq, Repr

/-- The operand of the single-operand and read-modify-write instructions (R139). -/
inductive Dst where
  | reg (d : RegCode)
  | mem (m : Mem)
deriving DecidableEq, Repr

/-- A source of LD, LDB and LDL (43_load_store.md R360 to R368): R, IM, IR, DA, X, base address, base index. -/
inductive LdSrc (n : Nat) where
  | reg (s : RegCode)
  | imm (data : BitVec n)
  | mem (m : Mem)
  /-- `Rr(#disp)` (R136) -/
  | ba (r : RegCode) (disp : Word)
  /-- `Rr(Rx)` (R137) -/
  | bx (r x : RegCode)
deriving DecidableEq, Repr

/-- A memory destination of LD, LDB and LDL (R363 to R365). -/
inductive LdDst where
  | mem (m : Mem)
  | ba (r : RegCode) (disp : Word)
  | bx (r x : RegCode)
deriving DecidableEq, Repr

/-- The source of LDA (R380): DA, X, BA, BX; there is no IR form. -/
inductive LdaSrc where
  | da (address : Word)
  | x (address : Word) (r : RegCode)
  | ba (r : RegCode) (disp : Word)
  | bx (r x : RegCode)
deriving DecidableEq, Repr

/-- The port of IN and OUT: a register holding the port address, or the port word (46_io.md R522, R526). -/
inductive Port where
  | ir (r : RegCode)
  | da (port : Word)
deriving DecidableEq, Repr

/-- The control registers of the word form of LDCTL (10_state.md R34). -/
inductive CtlReg where
  | fcw | refresh | psap | nsp
deriving DecidableEq, Repr

/-- The instructions. One word of the encoding tables decodes to at most one of them (30_encoding.md R144). -/
inductive Instr where
  -- Arithmetic, 40_arithmetic.md
  | adc (d s : RegCode)
  | adcb (d s : RegCode)
  | add (d : RegCode) (src : Src 16)
  | addb (d : RegCode) (src : Src 8)
  | addl (d : RegCode) (src : Src 32)
  | cp (d : RegCode) (src : Src 16)
  | cpb (d : RegCode) (src : Src 8)
  | cpl (d : RegCode) (src : Src 32)
  /-- `CP dst, #data` with a memory destination (R218) -/
  | cpMem (m : Mem) (data : Word)
  /-- `CPB dst, #data` with a memory destination (R219) -/
  | cpbMem (m : Mem) (data : Byte)
  | dab (d : RegCode)
  /-- `n` is the field nnnn: the operand less one -/
  | dec (dst : Dst) (n : Nibble)
  | decb (dst : Dst) (n : Nibble)
  | div (d : RegCode) (src : Src 16)
  | divl (d : RegCode) (src : Src 32)
  | exts (d : RegCode)
  | extsb (d : RegCode)
  | extsl (d : RegCode)
  | inc (dst : Dst) (n : Nibble)
  | incb (dst : Dst) (n : Nibble)
  | mult (d : RegCode) (src : Src 16)
  | multl (d : RegCode) (src : Src 32)
  | neg (dst : Dst)
  | negb (dst : Dst)
  | sbc (d s : RegCode)
  | sbcb (d s : RegCode)
  | sub (d : RegCode) (src : Src 16)
  | subb (d : RegCode) (src : Src 8)
  | subl (d : RegCode) (src : Src 32)
  -- Logical, bit, flag and test, 41_logical_bit.md
  | and (d : RegCode) (src : Src 16)
  | andb (d : RegCode) (src : Src 8)
  | or (d : RegCode) (src : Src 16)
  | orb (d : RegCode) (src : Src 8)
  | xor (d : RegCode) (src : Src 16)
  | xorb (d : RegCode) (src : Src 8)
  | com (dst : Dst)
  | comb (dst : Dst)
  | bit (dst : Dst) (b : Nibble)
  | bitb (dst : Dst) (b : BitVec 3)
  /-- the dynamic form: the bit number is in Rs (R266) -/
  | bitDyn (d s : RegCode)
  | bitbDyn (d s : RegCode)
  | res (dst : Dst) (b : Nibble)
  | resb (dst : Dst) (b : BitVec 3)
  | resDyn (d s : RegCode)
  | resbDyn (d s : RegCode)
  | set (dst : Dst) (b : Nibble)
  | setb (dst : Dst) (b : BitVec 3)
  | setDyn (d s : RegCode)
  | setbDyn (d s : RegCode)
  | comflg (czsv : Nibble)
  | resflg (czsv : Nibble)
  | setflg (czsv : Nibble)
  | tcc (cc : Cond) (d : RegCode)
  | tccb (cc : Cond) (d : RegCode)
  | test (dst : Dst)
  | testb (dst : Dst)
  | testl (dst : Dst)
  | tset (dst : Dst)
  | tsetb (dst : Dst)
  -- Program control, 42_control_transfer.md
  | call (m : Mem)
  | calr (disp : BitVec 12)
  | djnz (r : RegCode) (disp : BitVec 7)
  | dbjnz (r : RegCode) (disp : BitVec 7)
  | jp (cc : Cond) (m : Mem)
  | jr (cc : Cond) (disp : BitVec 8)
  | ret (cc : Cond)
  -- Load, store, exchange and stack, 43_load_store.md
  | clr (dst : Dst)
  | clrb (dst : Dst)
  | ex (d : RegCode) (src : Dst)
  | exb (d : RegCode) (src : Dst)
  | ld (d : RegCode) (src : LdSrc 16)
  | ldb (d : RegCode) (src : LdSrc 8)
  | ldl (d : RegCode) (src : LdSrc 32)
  /-- the one-word compact form of `LDB Rbd, #data` (R367) -/
  | ldbShort (d : RegCode) (data : Byte)
  | ldStore (dst : LdDst) (s : RegCode)
  | ldbStore (dst : LdDst) (s : RegCode)
  | ldlStore (dst : LdDst) (s : RegCode)
  /-- `LD dst, #data` with a memory destination (R369) -/
  | ldImm (m : Mem) (data : Word)
  /-- `LDB dst, #data` with a memory destination (R370) -/
  | ldbImm (m : Mem) (data : Byte)
  | lda (d : RegCode) (src : LdaSrc)
  | ldar (d : RegCode) (disp : Word)
  | ldk (d : RegCode) (data : Nibble)
  /-- registers from memory; `n` is the field nnnn, the count less one (R393) -/
  | ldm (d : RegCode) (m : Mem) (n : Nibble)
  /-- memory from registers (R394) -/
  | ldmStore (m : Mem) (s : RegCode) (n : Nibble)
  | ldr (d : RegCode) (disp : Word)
  | ldrStore (disp : Word) (s : RegCode)
  | ldrb (d : RegCode) (disp : Word)
  | ldrbStore (disp : Word) (s : RegCode)
  | ldrl (d : RegCode) (disp : Word)
  | ldrlStore (disp : Word) (s : RegCode)
  /-- `s` is the stack register -/
  | pop (dst : Dst) (s : RegCode)
  | popl (dst : Dst) (s : RegCode)
  /-- `d` is the stack register -/
  | push (d : RegCode) (src : Dst)
  | pushl (d : RegCode) (src : Dst)
  /-- `PUSH @Rd, #data` (R404) -/
  | pushImm (d : RegCode) (data : Word)
  -- Rotate and shift, 44_rotate_shift.md
  /-- `two` tells `#2` from `#1` -/
  | rl (d : RegCode) (two : Bool)
  | rlb (d : RegCode) (two : Bool)
  | rlc (d : RegCode) (two : Bool)
  | rlcb (d : RegCode) (two : Bool)
  | rr (d : RegCode) (two : Bool)
  | rrb (d : RegCode) (two : Bool)
  | rrc (d : RegCode) (two : Bool)
  | rrcb (d : RegCode) (two : Bool)
  | rldb (d s : RegCode)
  | rrdb (d s : RegCode)
  | sda (d s : RegCode)
  | sdab (d s : RegCode)
  | sdal (d s : RegCode)
  | sdl (d s : RegCode)
  | sdlb (d s : RegCode)
  | sdll (d s : RegCode)
  /-- the count word as it stands in the instruction, zero or positive -/
  | sla (d : RegCode) (count : Word)
  | slab (d : RegCode) (count : Byte)
  | slal (d : RegCode) (count : Word)
  | sll (d : RegCode) (count : Word)
  | sllb (d : RegCode) (count : Byte)
  | slll (d : RegCode) (count : Word)
  /-- the count word as it stands in the instruction, negative -/
  | sra (d : RegCode) (count : Word)
  | srab (d : RegCode) (count : Byte)
  | sral (d : RegCode) (count : Word)
  | srl (d : RegCode) (count : Word)
  | srlb (d : RegCode) (count : Byte)
  | srll (d : RegCode) (count : Word)
  -- Block compare, block load, translate, translate and test, 45_block_string.md
  | cpd (d s r : RegCode) (cc : Cond)
  | cpdb (d s r : RegCode) (cc : Cond)
  | cpdr (d s r : RegCode) (cc : Cond)
  | cpdrb (d s r : RegCode) (cc : Cond)
  | cpi (d s r : RegCode) (cc : Cond)
  | cpib (d s r : RegCode) (cc : Cond)
  | cpir (d s r : RegCode) (cc : Cond)
  | cpirb (d s r : RegCode) (cc : Cond)
  | cpsd (d s r : RegCode) (cc : Cond)
  | cpsdb (d s r : RegCode) (cc : Cond)
  | cpsdr (d s r : RegCode) (cc : Cond)
  | cpsdrb (d s r : RegCode) (cc : Cond)
  | cpsi (d s r : RegCode) (cc : Cond)
  | cpsib (d s r : RegCode) (cc : Cond)
  | cpsir (d s r : RegCode) (cc : Cond)
  | cpsirb (d s r : RegCode) (cc : Cond)
  | ldd (d s r : RegCode)
  | lddb (d s r : RegCode)
  | lddr (d s r : RegCode)
  | lddrb (d s r : RegCode)
  | ldi (d s r : RegCode)
  | ldib (d s r : RegCode)
  | ldir (d s r : RegCode)
  | ldirb (d s r : RegCode)
  | trdb (d s r : RegCode)
  | trdrb (d s r : RegCode)
  | trib (d s r : RegCode)
  | trirb (d s r : RegCode)
  | trtdb (s1 s2 r : RegCode)
  | trtdrb (s1 s2 r : RegCode)
  | trtib (s1 s2 r : RegCode)
  | trtirb (s1 s2 r : RegCode)
  -- Input and output, 46_io.md
  /-- IN -/
  | inp (d : RegCode) (port : Port)
  | inb (d : RegCode) (port : Port)
  | sin (d : RegCode) (port : Word)
  | sinb (d : RegCode) (port : Word)
  | out (port : Port) (s : RegCode)
  | outb (port : Port) (s : RegCode)
  | sout (port : Word) (s : RegCode)
  | soutb (port : Word) (s : RegCode)
  | ind (d s r : RegCode)
  | indb (d s r : RegCode)
  | indr (d s r : RegCode)
  | indrb (d s r : RegCode)
  | ini (d s r : RegCode)
  | inib (d s r : RegCode)
  | inir (d s r : RegCode)
  | inirb (d s r : RegCode)
  | outd (d s r : RegCode)
  | outdb (d s r : RegCode)
  | otdr (d s r : RegCode)
  | otdrb (d s r : RegCode)
  | outi (d s r : RegCode)
  | outib (d s r : RegCode)
  | otir (d s r : RegCode)
  | otirb (d s r : RegCode)
  | sind (d s r : RegCode)
  | sindb (d s r : RegCode)
  | sindr (d s r : RegCode)
  | sindrb (d s r : RegCode)
  | sini (d s r : RegCode)
  | sinib (d s r : RegCode)
  | sinir (d s r : RegCode)
  | sinirb (d s r : RegCode)
  | soutd (d s r : RegCode)
  | soutdb (d s r : RegCode)
  | sotdr (d s r : RegCode)
  | sotdrb (d s r : RegCode)
  | souti (d s r : RegCode)
  | soutib (d s r : RegCode)
  | sotir (d s r : RegCode)
  | sotirb (d s r : RegCode)
  -- CPU control, 47_system.md
  | di (vn : BitVec 2)
  | ei (vn : BitVec 2)
  | halt
  | iret
  /-- to the control register -/
  | ldctlTo (c : CtlReg) (s : RegCode)
  | ldctlFrom (d : RegCode) (c : CtlReg)
  /-- `LDCTLB FLAGS, Rbs` -/
  | ldctlbTo (s : RegCode)
  | ldctlbFrom (d : RegCode)
  | ldps (m : Mem)
  | mbit
  | mreq (d : RegCode)
  | mres
  | mset
  | nop
  | sc (src : Byte)
  -- Extended Processing Unit instructions and trapped opcodes, 48_epu.md and 30_encoding.md R140: `w` is the first word
  /-- the transfers between EPU and memory or registers (R623 to R626) -/
  | ldEpu (w : Word)
  /-- the transfers between EPU and flags (R627, R628) -/
  | ldbEpu (w : Word)
  /-- the internal EPU operation (R629) -/
  | epui (w : Word)
  /-- a word of the trapped list of type Reserved -/
  | trappedReserved (w : Word)
  /-- a word of the trapped list of type EPU that is no documented EPU form -/
  | trappedEpu (w : Word)
  /-- a word of the row `0111111x_xxxx_xxxx` that is not SC itself -/
  | trappedReservedSc (w : Word)
deriving DecidableEq, Repr

end Sys2Proof
end

