-- ==== Sys2Proof/Decode.lean ====
section
/-!
DEFINITION. Decode.lean: from words to instructions, total, and back (30_encoding.md). First the fields of a word, then
the trapped list of Appendix 3 (R140), then the decoder after R143 and R144, then the encoder from the same tables,
then the decoder as the opcode table numbers its bits.
-/

namespace Sys2Proof

/-! Fields of an instruction word. -/

/-- A first word from its fields: address mode, opcode, bits 7:4, bits 3:0 (R102). -/
def word1 (mode : BitVec 2) (op : BitVec 6) (n1 n0 : Nibble) : Word := mode ++ op ++ n1 ++ n0

/-- A first word of the compact format (R104): mode 11, bits 13:12, bits 11:8, 7:4, 3:0. -/
def compact (kind : BitVec 2) (n2 n1 n0 : Nibble) : Word := 0b11#2 ++ kind ++ n2 ++ n1 ++ n0

/-- A second opcode word as the tables print it: bits 15:12 are 0000 (R105). -/
def word2 (n2 n1 n0 : Nibble) : Word := 0x0#4 ++ n2 ++ n1 ++ n0

/-- Bits 15:14, the address mode (R103). -/
def modeOf (w : Word) : BitVec 2 := w.extractLsb' 14 2

/-- Bits 13:8, the opcode (R102). -/
def opOf (w : Word) : BitVec 6 := w.extractLsb' 8 6

/-- Bits 13:12 of a compact first word (R104). -/
def kindOf (w : Word) : BitVec 2 := w.extractLsb' 12 2

/-- Bits 11:8. -/
def n2Of (w : Word) : Nibble := w.extractLsb' 8 4

/-- Bits 7:4. -/
def n1Of (w : Word) : Nibble := w.extractLsb' 4 4

/-- Bits 3:0. -/
def n0Of (w : Word) : Nibble := w.extractLsb' 0 4

/-- The condition a four-bit code stands for (R125). -/
def Cond.ofCode (c : Nibble) : Cond :=
  match c with
  | 0x0#4 => .f | 0x1#4 => .lt | 0x2#4 => .le | 0x3#4 => .ule
  | 0x4#4 => .ov | 0x5#4 => .mi | 0x6#4 => .z | 0x7#4 => .c
  | 0x8#4 => .always | 0x9#4 => .ge | 0xA#4 => .gt | 0xB#4 => .ugt
  | 0xC#4 => .nov | 0xD#4 => .pl | 0xE#4 => .nz | _ => .nc

/-- The four-bit code of a condition (R125). -/
def Cond.code : Cond → Nibble
  | .f => 0x0#4 | .lt => 0x1#4 | .le => 0x2#4 | .ule => 0x3#4
  | .ov => 0x4#4 | .mi => 0x5#4 | .z => 0x6#4 | .c => 0x7#4
  | .always => 0x8#4 | .ge => 0x9#4 | .gt => 0xA#4 | .ugt => 0xB#4
  | .nov => 0xC#4 | .pl => 0xD#4 | .nz => 0xE#4 | .nc => 0xF#4

/-- The code of a control register in LDCTL (10_state.md R34). -/
def CtlReg.code : CtlReg → BitVec 3
  | .fcw => 0b010#3 | .refresh => 0b011#3 | .psap => 0b101#3 | .nsp => 0b111#3

/-- Why the decoder refuses a sequence of words. -/
inductive DecodeError where
  /-- a first word that is neither documented nor trapped (R142, D15) -/
  | unassignedOpcode
  /-- a byte immediate held in a word whose halves differ (R116, D7) -/
  | unequalImmediateHalves
  /-- the last nibble of a block load or block I/O second word is neither 1000 nor 0000 (45_block_string.md R479,
  D27) -/
  | reservedConditionNibble
  /-- fewer words than the instruction has; the machine always offers three (R101), so `step` never meets it -/
  | truncated
deriving DecidableEq, Repr

/-- An instruction and the words after it, or the reason there is none. -/
abbrev Decoded := Except DecodeError (Instr × List Word)

/-! The trapped list. -/

/-- The types of Appendix 3's list (R140). -/
inductive TrapKind where
  | reserved | epu | reservedSc
deriving DecidableEq, Repr

/-- One row of the trapped list: a first word `w` is in it when `w &&& mask = pattern`. -/
structure TrapRow where
  mask : Word
  pattern : Word
  kind : TrapKind
deriving DecidableEq, Repr

/-- The list of R140, first part; the comment is the row's pattern. -/
def trappedListA : List TrapRow :=
  [
     ⟨0xBE03#16, 0x0C03#16, .reserved⟩  -- 0x00110x_xxxx_xx11
   , ⟨0xBE0A#16, 0x0C0A#16, .reserved⟩  -- 0x00110x_xxxx_1x1x
   , ⟨0xBE0C#16, 0x0C0C#16, .reserved⟩  -- 0x00110x_xxxx_11xx
   , ⟨0xBF09#16, 0x0C09#16, .reserved⟩  -- 0x001100_xxxx_1xx1
   , ⟨0xFF09#16, 0x4D09#16, .reserved⟩  -- 01001101_xxxx_1xx1
   , ⟨0x7F03#16, 0x0C03#16, .reserved⟩  -- x0001100_xxxx_xx11
   , ⟨0x7F0A#16, 0x0C0A#16, .reserved⟩  -- x0001100_xxxx_1x1x
   , ⟨0x7F0C#16, 0x0C0C#16, .reserved⟩  -- x0001100_xxxx_11xx
   , ⟨0xFF09#16, 0x8D09#16, .reserved⟩  -- 10001101_xxxx_1xx1
   , ⟨0xFF0A#16, 0x8D0A#16, .reserved⟩  -- 10001101_xxxx_1x1x
   , ⟨0xFF0C#16, 0x8D0C#16, .reserved⟩  -- 10001101_xxxx_11xx
   , ⟨0xBF0F#16, 0x1C00#16, .reserved⟩  -- 0x011100_xxxx_0000
   , ⟨0xBF02#16, 0x1C02#16, .reserved⟩  -- 0x011100_xxxx_xx1x
   , ⟨0xBF04#16, 0x1C04#16, .reserved⟩  -- 0x011100_xxxx_x1xx
   , ⟨0xBE00#16, 0x0E00#16, .epu⟩  -- 0x00111x_xxxx_xxxx
   , ⟨0x7E00#16, 0x0E00#16, .epu⟩  -- x000111x_xxxx_xxxx
   , ⟨0xFF00#16, 0x3600#16, .reserved⟩  -- 00110110_xxxx_xxxx
   , ⟨0xFF00#16, 0x3800#16, .reserved⟩  -- 00111000_xxxx_xxxx
   , ⟨0xFF01#16, 0x3901#16, .reserved⟩  -- 00111001_xxxx_xxx1
   , ⟨0xFF02#16, 0x3902#16, .reserved⟩  -- 00111001_xxxx_xx1x
   , ⟨0xFF04#16, 0x3904#16, .reserved⟩  -- 00111001_xxxx_x1xx
   , ⟨0xFF08#16, 0x3908#16, .reserved⟩  -- 00111001_xxxx_1xxx
   , ⟨0xFE0C#16, 0x3A0C#16, .reserved⟩  -- 0011101x_xxxx_11xx
   , ⟨0xFF09#16, 0x7B01#16, .reserved⟩  -- 01111011_xxxx_0xx1
  ]

/-- The list of R140, second part. -/
def trappedListB : List TrapRow :=
  [
     ⟨0xFF0B#16, 0x7B02#16, .reserved⟩  -- 01111011_xxxx_0x10
   , ⟨0xFF07#16, 0x7B03#16, .reserved⟩  -- 01111011_xxxx_x011
   , ⟨0xFF07#16, 0x7B04#16, .reserved⟩  -- 01111011_xxxx_x100
   , ⟨0xFF0E#16, 0x7B0E#16, .reserved⟩  -- 01111011_xxxx_111x
   , ⟨0xFF00#16, 0x7800#16, .reserved⟩  -- 01111000_xxxx_xxxx
   , ⟨0xFF01#16, 0x7901#16, .reserved⟩  -- 01111001_xxxx_xxx1
   , ⟨0xFF02#16, 0x7902#16, .reserved⟩  -- 01111001_xxxx_xx1x
   , ⟨0xFF04#16, 0x7904#16, .reserved⟩  -- 01111001_xxxx_x1xx
   , ⟨0xFF08#16, 0x7908#16, .reserved⟩  -- 01111001_xxxx_1xxx
   , ⟨0xFF06#16, 0x7D00#16, .reserved⟩  -- 01111101_xxxx_x00x
   , ⟨0xFF05#16, 0x7D04#16, .reserved⟩  -- 01111101_xxxx_x1x0
   , ⟨0xFE00#16, 0x7E00#16, .reservedSc⟩  -- 0111111x_xxxx_xxxx
   , ⟨0xFE01#16, 0x9C01#16, .reserved⟩  -- 1001110x_xxxx_xxx1
   , ⟨0xFE02#16, 0x9C02#16, .reserved⟩  -- 1001110x_xxxx_xx1x
   , ⟨0xFE04#16, 0x9C04#16, .reserved⟩  -- 1001110x_xxxx_x1xx
   , ⟨0xFE08#16, 0x9C00#16, .reserved⟩  -- 1001110x_xxxx_0xxx
   , ⟨0xFD00#16, 0x9D00#16, .reserved⟩  -- 100111x1_xxxx_xxxx
   , ⟨0xFF05#16, 0xB205#16, .reserved⟩  -- 10110010_xxxx_x1x1
   , ⟨0xFF00#16, 0xB900#16, .reserved⟩  -- 10111001_xxxx_xxxx
   , ⟨0xFF01#16, 0xB801#16, .reserved⟩  -- 10111000_xxxx_xxx1
   , ⟨0xFE07#16, 0xBA03#16, .reserved⟩  -- 1011101x_xxxx_x011
   , ⟨0xFE05#16, 0xBA05#16, .reserved⟩  -- 1011101x_xxxx_x1x1
   , ⟨0xFF00#16, 0xBF00#16, .reserved⟩  -- 10111111_xxxx_xxxx
  ]

/-- The type of the first row of R140's list that a first word is in. -/
def trapKind (w : Word) : Option TrapKind :=
  ((trappedListA ++ trappedListB).find? fun row => w &&& row.mask == row.pattern).map (·.kind)

/-- The instruction of an EPU first word: a documented form (48_epu.md R623 to R629) or another trapped word (R621).
In the memory forms with mode 00 the address register is not R0 (R111). -/
def epuInstr (w : Word) : Instr :=
  match modeOf w, opOf w, (n0Of w).extractLsb' 2 2 with
  | 0b00#2, 0x0F#6, 0b11#2 => if n1Of w = 0 then .trappedEpu w else .ldEpu w
  | 0b00#2, 0x0F#6, 0b01#2 => if n1Of w = 0 then .trappedEpu w else .ldEpu w
  | 0b01#2, 0x0F#6, 0b11#2 => .ldEpu w
  | 0b01#2, 0x0F#6, 0b01#2 => .ldEpu w
  | 0b10#2, 0x0F#6, 0b00#2 => if (n1Of w).getLsbD 3 then .trappedEpu w else .ldEpu w
  | 0b10#2, 0x0F#6, 0b10#2 => if (n1Of w).getLsbD 3 then .trappedEpu w else .ldEpu w
  | 0b10#2, 0x0E#6, 0b00#2 => .ldbEpu w
  | 0b10#2, 0x0E#6, 0b10#2 => .ldbEpu w
  | 0b10#2, 0x0E#6, 0b01#2 => .epui w
  | _, _, _ => .trappedEpu w

/-- The trapped instruction a first word is, if it is one. The list also covers SC itself, which is an instruction of
its own; no other word of the list is matched by an implemented row (R140 (d)), so that it makes no difference that
the decoder looks here first. -/
def trapInstr (w : Word) : Option Instr :=
  if modeOf w = 0b01#2 ∧ opOf w = 0x3F#6 then none
  else match trapKind w with
    | none => none
    | some .reserved => some (.trappedReserved w)
    | some .reservedSc => some (.trappedReservedSc w)
    | some .epu => some (epuInstr w)

/-! Reading operands. Each takes what to do with the operand and the words that remain. -/

/-- The words name no instruction. -/
def noForm (_w : Word) : Decoded := .error .unassignedOpcode

/-- The next word. -/
def takeWord (ws : List Word) (k : Word → List Word → Decoded) : Decoded :=
  match ws with
  | [] => .error .truncated
  | v :: ws => k v ws

/-- A word immediate (R115). -/
def immWord (ws : List Word) (k : Word → List Word → Decoded) : Decoded := takeWord ws k

/-- A byte immediate in a full word: both halves hold it (R116). -/
def immByte (ws : List Word) (k : Byte → List Word → Decoded) : Decoded :=
  takeWord ws fun v ws =>
    if v.extractLsb' 8 8 = v.extractLsb' 0 8 then k (v.extractLsb' 0 8) ws else .error .unequalImmediateHalves

/-- A long immediate: high word first (R117). -/
def immLong (ws : List Word) (k : Long → List Word → Decoded) : Decoded :=
  takeWord ws fun hi ws => takeWord ws fun lo ws => k (hi ++ lo) ws

/-- A register field that must not be 0000 (R111, R142 group A). -/
def nonZero (w : Word) (r : RegCode) (d : Decoded) : Decoded := if r = 0 then noForm w else d

/-- An IR operand (R132). -/
def ir (w : Word) (r : RegCode) (k : Mem → Decoded) : Decoded := nonZero w r (k (.ir r))

/-- A DA or X operand: DA when the field is 0000 (R103, R133, R134). -/
def daX (r : RegCode) (ws : List Word) (k : Mem → List Word → Decoded) : Decoded :=
  takeWord ws fun v ws => k (if r = 0 then .da v else .x v r) ws

/-- The second word `0000_Rrrr_Rddd_cccc` of block load and block I/O: the nibble cccc tells the single form (1000) from
the repeating form (0000); bits 15:12 are ignored (45_block_string.md R479, 46_io.md R547). The arguments build the two
forms from the fields d and r. -/
def blockPair (ws : List Word) (single repeating : RegCode → RegCode → Instr) : Decoded :=
  takeWord ws fun v ws =>
    match n0Of v with
    | 0x8#4 => .ok (single (n1Of v) (n2Of v), ws)
    | 0x0#4 => .ok (repeating (n1Of v) (n2Of v), ws)
    | _ => .error .reservedConditionNibble

/-- The first words of block input and output (46_io.md R547). Among the privileged instructions only these have a second
word that can be refused. -/
def blockIoWord (w : Word) : Bool :=
  modeOf w == 0b00#2 && (opOf w == 0x3A#6 || opOf w == 0x3B#6) && n1Of w != 0x0#4 && !(n0Of w).getLsbD 2

/-- A static shift by a word count: its sign tells left from right (44_rotate_shift.md R435, R443). -/
def shiftWord (count : Word) (left right : Word → Instr) : Instr := if count.msb then right count else left count

/-- A static byte shift: only the low byte of the count word is used (R444). -/
def shiftByte (count : Byte) (left right : Byte → Instr) : Instr := if count.msb then right count else left count

/-! The decoder. -/

/-- First words with mode bits 00 (R103, R143): IM and IR, and the opcodes that use mode 00 for BA and RA forms, the dynamic
bit instructions and the I/O group. -/
def decode00 (w : Word) (op : BitVec 6) (n1 n0 : Nibble) (ws : List Word) : Decoded :=
  match op with
  | 0x00#6 => if n1 = 0 then immByte ws fun v ws => .ok (.addb n0 (.imm v), ws) else .ok (.addb n0 (.mem (.ir n1)), ws)
  | 0x01#6 => if n1 = 0 then immWord ws fun v ws => .ok (.add n0 (.imm v), ws) else .ok (.add n0 (.mem (.ir n1)), ws)
  | 0x02#6 => if n1 = 0 then immByte ws fun v ws => .ok (.subb n0 (.imm v), ws) else .ok (.subb n0 (.mem (.ir n1)), ws)
  | 0x03#6 => if n1 = 0 then immWord ws fun v ws => .ok (.sub n0 (.imm v), ws) else .ok (.sub n0 (.mem (.ir n1)), ws)
  | 0x04#6 => if n1 = 0 then immByte ws fun v ws => .ok (.orb n0 (.imm v), ws) else .ok (.orb n0 (.mem (.ir n1)), ws)
  | 0x05#6 => if n1 = 0 then immWord ws fun v ws => .ok (.or n0 (.imm v), ws) else .ok (.or n0 (.mem (.ir n1)), ws)
  | 0x06#6 => if n1 = 0 then immByte ws fun v ws => .ok (.andb n0 (.imm v), ws) else .ok (.andb n0 (.mem (.ir n1)), ws)
  | 0x07#6 => if n1 = 0 then immWord ws fun v ws => .ok (.and n0 (.imm v), ws) else .ok (.and n0 (.mem (.ir n1)), ws)
  | 0x08#6 => if n1 = 0 then immByte ws fun v ws => .ok (.xorb n0 (.imm v), ws) else .ok (.xorb n0 (.mem (.ir n1)), ws)
  | 0x09#6 => if n1 = 0 then immWord ws fun v ws => .ok (.xor n0 (.imm v), ws) else .ok (.xor n0 (.mem (.ir n1)), ws)
  | 0x0A#6 => if n1 = 0 then immByte ws fun v ws => .ok (.cpb n0 (.imm v), ws) else .ok (.cpb n0 (.mem (.ir n1)), ws)
  | 0x0B#6 => if n1 = 0 then immWord ws fun v ws => .ok (.cp n0 (.imm v), ws) else .ok (.cp n0 (.mem (.ir n1)), ws)
  | 0x0C#6 =>
    match n0 with
    | 0x0#4 => ir w n1 fun m => .ok (.comb (.mem m), ws)
    | 0x1#4 => ir w n1 fun m => immByte ws fun v ws => .ok (.cpbMem m v, ws)
    | 0x2#4 => ir w n1 fun m => .ok (.negb (.mem m), ws)
    | 0x4#4 => ir w n1 fun m => .ok (.testb (.mem m), ws)
    | 0x5#4 => ir w n1 fun m => immByte ws fun v ws => .ok (.ldbImm m v, ws)
    | 0x6#4 => ir w n1 fun m => .ok (.tsetb (.mem m), ws)
    | 0x8#4 => ir w n1 fun m => .ok (.clrb (.mem m), ws)
    | _ => noForm w
  | 0x0D#6 =>
    match n0 with
    | 0x0#4 => ir w n1 fun m => .ok (.com (.mem m), ws)
    | 0x1#4 => ir w n1 fun m => immWord ws fun v ws => .ok (.cpMem m v, ws)
    | 0x2#4 => ir w n1 fun m => .ok (.neg (.mem m), ws)
    | 0x4#4 => ir w n1 fun m => .ok (.test (.mem m), ws)
    | 0x5#4 => ir w n1 fun m => immWord ws fun v ws => .ok (.ldImm m v, ws)
    | 0x6#4 => ir w n1 fun m => .ok (.tset (.mem m), ws)
    | 0x8#4 => ir w n1 fun m => .ok (.clr (.mem m), ws)
    | 0x9#4 => nonZero w n1 (immWord ws fun v ws => .ok (.pushImm n1 v, ws))
    | _ => noForm w
  | 0x10#6 => if n1 = 0 then immLong ws fun v ws => .ok (.cpl n0 (.imm v), ws) else .ok (.cpl n0 (.mem (.ir n1)), ws)
  | 0x11#6 => nonZero w n1 (ir w n0 fun m => .ok (.pushl n1 (.mem m), ws))
  | 0x12#6 => if n1 = 0 then immLong ws fun v ws => .ok (.subl n0 (.imm v), ws) else .ok (.subl n0 (.mem (.ir n1)), ws)
  | 0x13#6 => nonZero w n1 (ir w n0 fun m => .ok (.push n1 (.mem m), ws))
  | 0x14#6 => if n1 = 0 then immLong ws fun v ws => .ok (.ldl n0 (.imm v), ws) else .ok (.ldl n0 (.mem (.ir n1)), ws)
  | 0x15#6 => nonZero w n1 (ir w n0 fun m => .ok (.popl (.mem m) n1, ws))
  | 0x16#6 => if n1 = 0 then immLong ws fun v ws => .ok (.addl n0 (.imm v), ws) else .ok (.addl n0 (.mem (.ir n1)), ws)
  | 0x17#6 => nonZero w n1 (ir w n0 fun m => .ok (.pop (.mem m) n1, ws))
  | 0x18#6 => if n1 = 0 then immLong ws fun v ws => .ok (.multl n0 (.imm v), ws) else .ok (.multl n0 (.mem (.ir n1)), ws)
  | 0x19#6 => if n1 = 0 then immWord ws fun v ws => .ok (.mult n0 (.imm v), ws) else .ok (.mult n0 (.mem (.ir n1)), ws)
  | 0x1A#6 => if n1 = 0 then immLong ws fun v ws => .ok (.divl n0 (.imm v), ws) else .ok (.divl n0 (.mem (.ir n1)), ws)
  | 0x1B#6 => if n1 = 0 then immWord ws fun v ws => .ok (.div n0 (.imm v), ws) else .ok (.div n0 (.mem (.ir n1)), ws)
  | 0x1C#6 =>
    match n0 with
    | 0x1#4 => ir w n1 fun m => takeWord ws fun v ws => .ok (.ldm (n2Of v) m (n0Of v), ws)
    | 0x8#4 => ir w n1 fun m => .ok (.testl (.mem m), ws)
    | 0x9#4 => ir w n1 fun m => takeWord ws fun v ws => .ok (.ldmStore m (n2Of v) (n0Of v), ws)
    | _ => noForm w
  | 0x1D#6 => ir w n1 fun m => .ok (.ldlStore (.mem m) n0, ws)
  | 0x1E#6 => ir w n1 fun m => .ok (.jp (Cond.ofCode n0) m, ws)
  | 0x1F#6 => ir w n1 fun m => .ok (.call m, ws)
  | 0x20#6 => if n1 = 0 then immByte ws fun v ws => .ok (.ldb n0 (.imm v), ws) else .ok (.ldb n0 (.mem (.ir n1)), ws)
  | 0x21#6 => if n1 = 0 then immWord ws fun v ws => .ok (.ld n0 (.imm v), ws) else .ok (.ld n0 (.mem (.ir n1)), ws)
  | 0x22#6 => if n1 = 0 then takeWord ws fun v ws => .ok (.resbDyn (n2Of v) n0, ws) else .ok (.resb (.mem (.ir n1)) (n0.truncate 3), ws)
  | 0x23#6 => if n1 = 0 then takeWord ws fun v ws => .ok (.resDyn (n2Of v) n0, ws) else .ok (.res (.mem (.ir n1)) n0, ws)
  | 0x24#6 => if n1 = 0 then takeWord ws fun v ws => .ok (.setbDyn (n2Of v) n0, ws) else .ok (.setb (.mem (.ir n1)) (n0.truncate 3), ws)
  | 0x25#6 => if n1 = 0 then takeWord ws fun v ws => .ok (.setDyn (n2Of v) n0, ws) else .ok (.set (.mem (.ir n1)) n0, ws)
  | 0x26#6 => if n1 = 0 then takeWord ws fun v ws => .ok (.bitbDyn (n2Of v) n0, ws) else .ok (.bitb (.mem (.ir n1)) (n0.truncate 3), ws)
  | 0x27#6 => if n1 = 0 then takeWord ws fun v ws => .ok (.bitDyn (n2Of v) n0, ws) else .ok (.bit (.mem (.ir n1)) n0, ws)
  | 0x28#6 => ir w n1 fun m => .ok (.incb (.mem m) n0, ws)
  | 0x29#6 => ir w n1 fun m => .ok (.inc (.mem m) n0, ws)
  | 0x2A#6 => ir w n1 fun m => .ok (.decb (.mem m) n0, ws)
  | 0x2B#6 => ir w n1 fun m => .ok (.dec (.mem m) n0, ws)
  | 0x2C#6 => ir w n1 fun m => .ok (.exb n0 (.mem m), ws)
  | 0x2D#6 => ir w n1 fun m => .ok (.ex n0 (.mem m), ws)
  | 0x2E#6 => ir w n1 fun m => .ok (.ldbStore (.mem m) n0, ws)
  | 0x2F#6 => ir w n1 fun m => .ok (.ldStore (.mem m) n0, ws)
  | 0x30#6 => takeWord ws fun v ws => .ok (if n1 = 0 then .ldrb n0 v else .ldb n0 (.ba n1 v), ws)
  | 0x31#6 => takeWord ws fun v ws => .ok (if n1 = 0 then .ldr n0 v else .ld n0 (.ba n1 v), ws)
  | 0x32#6 => takeWord ws fun v ws => .ok (if n1 = 0 then .ldrbStore v n0 else .ldbStore (.ba n1 v) n0, ws)
  | 0x33#6 => takeWord ws fun v ws => .ok (if n1 = 0 then .ldrStore v n0 else .ldStore (.ba n1 v) n0, ws)
  | 0x34#6 => takeWord ws fun v ws => .ok (if n1 = 0 then .ldar n0 v else .lda n0 (.ba n1 v), ws)
  | 0x35#6 => takeWord ws fun v ws => .ok (if n1 = 0 then .ldrl n0 v else .ldl n0 (.ba n1 v), ws)
  | 0x37#6 => takeWord ws fun v ws => .ok (if n1 = 0 then .ldrlStore v n0 else .ldlStore (.ba n1 v) n0, ws)
  | 0x39#6 => if n0 = 0 then ir w n1 fun m => .ok (.ldps m, ws) else noForm w
  | 0x3A#6 =>
    match n0 with
    | 0x0#4 => nonZero w n1 (blockPair ws (.inib · n1 ·) (.inirb · n1 ·))
    | 0x1#4 => nonZero w n1 (blockPair ws (.sinib · n1 ·) (.sinirb · n1 ·))
    | 0x2#4 => nonZero w n1 (blockPair ws (.outib · n1 ·) (.otirb · n1 ·))
    | 0x3#4 => nonZero w n1 (blockPair ws (.soutib · n1 ·) (.sotirb · n1 ·))
    | 0x4#4 => takeWord ws fun v ws => .ok (.inb n1 (.da v), ws)
    | 0x5#4 => takeWord ws fun v ws => .ok (.sinb n1 v, ws)
    | 0x6#4 => takeWord ws fun v ws => .ok (.outb (.da v) n1, ws)
    | 0x7#4 => takeWord ws fun v ws => .ok (.soutb v n1, ws)
    | 0x8#4 => nonZero w n1 (blockPair ws (.indb · n1 ·) (.indrb · n1 ·))
    | 0x9#4 => nonZero w n1 (blockPair ws (.sindb · n1 ·) (.sindrb · n1 ·))
    | 0xA#4 => nonZero w n1 (blockPair ws (.outdb · n1 ·) (.otdrb · n1 ·))
    | 0xB#4 => nonZero w n1 (blockPair ws (.soutdb · n1 ·) (.sotdrb · n1 ·))
    | _ => noForm w
  | 0x3B#6 =>
    match n0 with
    | 0x0#4 => nonZero w n1 (blockPair ws (.ini · n1 ·) (.inir · n1 ·))
    | 0x1#4 => nonZero w n1 (blockPair ws (.sini · n1 ·) (.sinir · n1 ·))
    | 0x2#4 => nonZero w n1 (blockPair ws (.outi · n1 ·) (.otir · n1 ·))
    | 0x3#4 => nonZero w n1 (blockPair ws (.souti · n1 ·) (.sotir · n1 ·))
    | 0x4#4 => takeWord ws fun v ws => .ok (.inp n1 (.da v), ws)
    | 0x5#4 => takeWord ws fun v ws => .ok (.sin n1 v, ws)
    | 0x6#4 => takeWord ws fun v ws => .ok (.out (.da v) n1, ws)
    | 0x7#4 => takeWord ws fun v ws => .ok (.sout v n1, ws)
    | 0x8#4 => nonZero w n1 (blockPair ws (.ind · n1 ·) (.indr · n1 ·))
    | 0x9#4 => nonZero w n1 (blockPair ws (.sind · n1 ·) (.sindr · n1 ·))
    | 0xA#4 => nonZero w n1 (blockPair ws (.outd · n1 ·) (.otdr · n1 ·))
    | 0xB#4 => nonZero w n1 (blockPair ws (.soutd · n1 ·) (.sotdr · n1 ·))
    | _ => noForm w
  | 0x3C#6 => nonZero w n1 (.ok (.inb n0 (.ir n1), ws))
  | 0x3D#6 => nonZero w n1 (.ok (.inp n0 (.ir n1), ws))
  | 0x3E#6 => nonZero w n1 (.ok (.outb (.ir n1) n0, ws))
  | 0x3F#6 => nonZero w n1 (.ok (.out (.ir n1) n0, ws))
  | _ => noForm w

/-- First words with mode bits 01 (R103, R143): DA and X, the BX forms and the control group. -/
def decode01 (w : Word) (op : BitVec 6) (n1 n0 : Nibble) (ws : List Word) : Decoded :=
  match op with
  | 0x00#6 => daX n1 ws fun m ws => .ok (.addb n0 (.mem m), ws)
  | 0x01#6 => daX n1 ws fun m ws => .ok (.add n0 (.mem m), ws)
  | 0x02#6 => daX n1 ws fun m ws => .ok (.subb n0 (.mem m), ws)
  | 0x03#6 => daX n1 ws fun m ws => .ok (.sub n0 (.mem m), ws)
  | 0x04#6 => daX n1 ws fun m ws => .ok (.orb n0 (.mem m), ws)
  | 0x05#6 => daX n1 ws fun m ws => .ok (.or n0 (.mem m), ws)
  | 0x06#6 => daX n1 ws fun m ws => .ok (.andb n0 (.mem m), ws)
  | 0x07#6 => daX n1 ws fun m ws => .ok (.and n0 (.mem m), ws)
  | 0x08#6 => daX n1 ws fun m ws => .ok (.xorb n0 (.mem m), ws)
  | 0x09#6 => daX n1 ws fun m ws => .ok (.xor n0 (.mem m), ws)
  | 0x0A#6 => daX n1 ws fun m ws => .ok (.cpb n0 (.mem m), ws)
  | 0x0B#6 => daX n1 ws fun m ws => .ok (.cp n0 (.mem m), ws)
  | 0x0C#6 =>
    match n0 with
    | 0x0#4 => daX n1 ws fun m ws => .ok (.comb (.mem m), ws)
    | 0x1#4 => daX n1 ws fun m ws => immByte ws fun v ws => .ok (.cpbMem m v, ws)
    | 0x2#4 => daX n1 ws fun m ws => .ok (.negb (.mem m), ws)
    | 0x4#4 => daX n1 ws fun m ws => .ok (.testb (.mem m), ws)
    | 0x5#4 => daX n1 ws fun m ws => immByte ws fun v ws => .ok (.ldbImm m v, ws)
    | 0x6#4 => daX n1 ws fun m ws => .ok (.tsetb (.mem m), ws)
    | 0x8#4 => daX n1 ws fun m ws => .ok (.clrb (.mem m), ws)
    | _ => noForm w
  | 0x0D#6 =>
    match n0 with
    | 0x0#4 => daX n1 ws fun m ws => .ok (.com (.mem m), ws)
    | 0x1#4 => daX n1 ws fun m ws => immWord ws fun v ws => .ok (.cpMem m v, ws)
    | 0x2#4 => daX n1 ws fun m ws => .ok (.neg (.mem m), ws)
    | 0x4#4 => daX n1 ws fun m ws => .ok (.test (.mem m), ws)
    | 0x5#4 => daX n1 ws fun m ws => immWord ws fun v ws => .ok (.ldImm m v, ws)
    | 0x6#4 => daX n1 ws fun m ws => .ok (.tset (.mem m), ws)
    | 0x8#4 => daX n1 ws fun m ws => .ok (.clr (.mem m), ws)
    | _ => noForm w
  | 0x10#6 => daX n1 ws fun m ws => .ok (.cpl n0 (.mem m), ws)
  | 0x11#6 => nonZero w n1 (daX n0 ws fun m ws => .ok (.pushl n1 (.mem m), ws))
  | 0x12#6 => daX n1 ws fun m ws => .ok (.subl n0 (.mem m), ws)
  | 0x13#6 => nonZero w n1 (daX n0 ws fun m ws => .ok (.push n1 (.mem m), ws))
  | 0x14#6 => daX n1 ws fun m ws => .ok (.ldl n0 (.mem m), ws)
  | 0x15#6 => nonZero w n1 (daX n0 ws fun m ws => .ok (.popl (.mem m) n1, ws))
  | 0x16#6 => daX n1 ws fun m ws => .ok (.addl n0 (.mem m), ws)
  | 0x17#6 => nonZero w n1 (daX n0 ws fun m ws => .ok (.pop (.mem m) n1, ws))
  | 0x18#6 => daX n1 ws fun m ws => .ok (.multl n0 (.mem m), ws)
  | 0x19#6 => daX n1 ws fun m ws => .ok (.mult n0 (.mem m), ws)
  | 0x1A#6 => daX n1 ws fun m ws => .ok (.divl n0 (.mem m), ws)
  | 0x1B#6 => daX n1 ws fun m ws => .ok (.div n0 (.mem m), ws)
  | 0x1C#6 =>
    match n0 with
    | 0x1#4 => takeWord ws fun v ws => daX n1 ws fun m ws => .ok (.ldm (n2Of v) m (n0Of v), ws)
    | 0x8#4 => daX n1 ws fun m ws => .ok (.testl (.mem m), ws)
    | 0x9#4 => takeWord ws fun v ws => daX n1 ws fun m ws => .ok (.ldmStore m (n2Of v) (n0Of v), ws)
    | _ => noForm w
  | 0x1D#6 => daX n1 ws fun m ws => .ok (.ldlStore (.mem m) n0, ws)
  | 0x1E#6 => daX n1 ws fun m ws => .ok (.jp (Cond.ofCode n0) m, ws)
  | 0x1F#6 => daX n1 ws fun m ws => .ok (.call m, ws)
  | 0x20#6 => daX n1 ws fun m ws => .ok (.ldb n0 (.mem m), ws)
  | 0x21#6 => daX n1 ws fun m ws => .ok (.ld n0 (.mem m), ws)
  | 0x22#6 => daX n1 ws fun m ws => .ok (.resb (.mem m) (n0.truncate 3), ws)
  | 0x23#6 => daX n1 ws fun m ws => .ok (.res (.mem m) n0, ws)
  | 0x24#6 => daX n1 ws fun m ws => .ok (.setb (.mem m) (n0.truncate 3), ws)
  | 0x25#6 => daX n1 ws fun m ws => .ok (.set (.mem m) n0, ws)
  | 0x26#6 => daX n1 ws fun m ws => .ok (.bitb (.mem m) (n0.truncate 3), ws)
  | 0x27#6 => daX n1 ws fun m ws => .ok (.bit (.mem m) n0, ws)
  | 0x28#6 => daX n1 ws fun m ws => .ok (.incb (.mem m) n0, ws)
  | 0x29#6 => daX n1 ws fun m ws => .ok (.inc (.mem m) n0, ws)
  | 0x2A#6 => daX n1 ws fun m ws => .ok (.decb (.mem m) n0, ws)
  | 0x2B#6 => daX n1 ws fun m ws => .ok (.dec (.mem m) n0, ws)
  | 0x2C#6 => daX n1 ws fun m ws => .ok (.exb n0 (.mem m), ws)
  | 0x2D#6 => daX n1 ws fun m ws => .ok (.ex n0 (.mem m), ws)
  | 0x2E#6 => daX n1 ws fun m ws => .ok (.ldbStore (.mem m) n0, ws)
  | 0x2F#6 => daX n1 ws fun m ws => .ok (.ldStore (.mem m) n0, ws)
  | 0x30#6 => nonZero w n1 (takeWord ws fun v ws => .ok (.ldb n0 (.bx n1 (n2Of v)), ws))
  | 0x31#6 => nonZero w n1 (takeWord ws fun v ws => .ok (.ld n0 (.bx n1 (n2Of v)), ws))
  | 0x32#6 => nonZero w n1 (takeWord ws fun v ws => .ok (.ldbStore (.bx n1 (n2Of v)) n0, ws))
  | 0x33#6 => nonZero w n1 (takeWord ws fun v ws => .ok (.ldStore (.bx n1 (n2Of v)) n0, ws))
  | 0x34#6 => nonZero w n1 (takeWord ws fun v ws => .ok (.lda n0 (.bx n1 (n2Of v)), ws))
  | 0x35#6 => nonZero w n1 (takeWord ws fun v ws => .ok (.ldl n0 (.bx n1 (n2Of v)), ws))
  | 0x36#6 => takeWord ws fun v ws => .ok (.lda n0 (if n1 = 0 then .da v else .x v n1), ws)
  | 0x37#6 => nonZero w n1 (takeWord ws fun v ws => .ok (.ldlStore (.bx n1 (n2Of v)) n0, ws))
  | 0x39#6 => if n0 = 0 then daX n1 ws fun m ws => .ok (.ldps m, ws) else noForm w
  | 0x3A#6 => if n1 = 0 ∧ n0 = 0 then .ok (.halt, ws) else noForm w
  | 0x3B#6 =>
    match n0 with
    | 0x0#4 => if n1 = 0 then .ok (.iret, ws) else noForm w
    | 0x8#4 => if n1 = 0 then .ok (.mset, ws) else noForm w
    | 0x9#4 => if n1 = 0 then .ok (.mres, ws) else noForm w
    | 0xA#4 => if n1 = 0 then .ok (.mbit, ws) else noForm w
    | 0xD#4 => .ok (.mreq n1, ws)
    | _ => noForm w
  | 0x3C#6 =>
    if n1 = 0 then
      match n0.extractLsb' 2 2 with
      | 0b00#2 => .ok (.di (n0.truncate 2), ws)
      | 0b01#2 => .ok (.ei (n0.truncate 2), ws)
      | _ => noForm w
    else noForm w
  | 0x3D#6 =>
    match n0 with
    | 0x2#4 => .ok (.ldctlFrom n1 .fcw, ws)
    | 0x3#4 => .ok (.ldctlFrom n1 .refresh, ws)
    | 0x5#4 => .ok (.ldctlFrom n1 .psap, ws)
    | 0x7#4 => .ok (.ldctlFrom n1 .nsp, ws)
    | 0xA#4 => .ok (.ldctlTo .fcw n1, ws)
    | 0xB#4 => .ok (.ldctlTo .refresh n1, ws)
    | 0xD#4 => .ok (.ldctlTo .psap n1, ws)
    | 0xF#4 => .ok (.ldctlTo .nsp n1, ws)
    | _ => noForm w
  | 0x3F#6 => .ok (.sc (n1 ++ n0), ws)
  | _ => noForm w

/-- First words with mode bits 10 (R103, R143): register operands, rotates and shifts, the block instructions. -/
def decode10 (w : Word) (op : BitVec 6) (n1 n0 : Nibble) (ws : List Word) : Decoded :=
  match op with
  | 0x00#6 => .ok (.addb n0 (.reg n1), ws)
  | 0x01#6 => .ok (.add n0 (.reg n1), ws)
  | 0x02#6 => .ok (.subb n0 (.reg n1), ws)
  | 0x03#6 => .ok (.sub n0 (.reg n1), ws)
  | 0x04#6 => .ok (.orb n0 (.reg n1), ws)
  | 0x05#6 => .ok (.or n0 (.reg n1), ws)
  | 0x06#6 => .ok (.andb n0 (.reg n1), ws)
  | 0x07#6 => .ok (.and n0 (.reg n1), ws)
  | 0x08#6 => .ok (.xorb n0 (.reg n1), ws)
  | 0x09#6 => .ok (.xor n0 (.reg n1), ws)
  | 0x0A#6 => .ok (.cpb n0 (.reg n1), ws)
  | 0x0B#6 => .ok (.cp n0 (.reg n1), ws)
  | 0x0C#6 =>
    match n0 with
    | 0x0#4 => .ok (.comb (.reg n1), ws)
    | 0x1#4 => .ok (.ldctlbFrom n1, ws)
    | 0x2#4 => .ok (.negb (.reg n1), ws)
    | 0x4#4 => .ok (.testb (.reg n1), ws)
    | 0x6#4 => .ok (.tsetb (.reg n1), ws)
    | 0x8#4 => .ok (.clrb (.reg n1), ws)
    | 0x9#4 => .ok (.ldctlbTo n1, ws)
    | _ => noForm w
  | 0x0D#6 =>
    match n0 with
    | 0x0#4 => .ok (.com (.reg n1), ws)
    | 0x1#4 => .ok (.setflg n1, ws)
    | 0x2#4 => .ok (.neg (.reg n1), ws)
    | 0x3#4 => .ok (.resflg n1, ws)
    | 0x4#4 => .ok (.test (.reg n1), ws)
    | 0x5#4 => .ok (.comflg n1, ws)
    | 0x6#4 => .ok (.tset (.reg n1), ws)
    | 0x7#4 => if n1 = 0 then .ok (.nop, ws) else noForm w
    | 0x8#4 => .ok (.clr (.reg n1), ws)
    | _ => noForm w
  | 0x10#6 => .ok (.cpl n0 (.reg n1), ws)
  | 0x11#6 => nonZero w n1 (.ok (.pushl n1 (.reg n0), ws))
  | 0x12#6 => .ok (.subl n0 (.reg n1), ws)
  | 0x13#6 => nonZero w n1 (.ok (.push n1 (.reg n0), ws))
  | 0x14#6 => .ok (.ldl n0 (.reg n1), ws)
  | 0x15#6 => nonZero w n1 (.ok (.popl (.reg n0) n1, ws))
  | 0x16#6 => .ok (.addl n0 (.reg n1), ws)
  | 0x17#6 => nonZero w n1 (.ok (.pop (.reg n0) n1, ws))
  | 0x18#6 => .ok (.multl n0 (.reg n1), ws)
  | 0x19#6 => .ok (.mult n0 (.reg n1), ws)
  | 0x1A#6 => .ok (.divl n0 (.reg n1), ws)
  | 0x1B#6 => .ok (.div n0 (.reg n1), ws)
  | 0x1C#6 =>
    match n0 with
    | 0x8#4 => .ok (.testl (.reg n1), ws)
    | _ => noForm w
  | 0x1E#6 => if n1 = 0 then .ok (.ret (Cond.ofCode n0), ws) else noForm w
  | 0x20#6 => .ok (.ldb n0 (.reg n1), ws)
  | 0x21#6 => .ok (.ld n0 (.reg n1), ws)
  | 0x22#6 => .ok (.resb (.reg n1) (n0.truncate 3), ws)
  | 0x23#6 => .ok (.res (.reg n1) n0, ws)
  | 0x24#6 => .ok (.setb (.reg n1) (n0.truncate 3), ws)
  | 0x25#6 => .ok (.set (.reg n1) n0, ws)
  | 0x26#6 => .ok (.bitb (.reg n1) (n0.truncate 3), ws)
  | 0x27#6 => .ok (.bit (.reg n1) n0, ws)
  | 0x28#6 => .ok (.incb (.reg n1) n0, ws)
  | 0x29#6 => .ok (.inc (.reg n1) n0, ws)
  | 0x2A#6 => .ok (.decb (.reg n1) n0, ws)
  | 0x2B#6 => .ok (.dec (.reg n1) n0, ws)
  | 0x2C#6 => .ok (.exb n0 (.reg n1), ws)
  | 0x2D#6 => .ok (.ex n0 (.reg n1), ws)
  | 0x2E#6 => .ok (.tccb (Cond.ofCode n0) n1, ws)
  | 0x2F#6 => .ok (.tcc (Cond.ofCode n0) n1, ws)
  | 0x30#6 => .ok (.dab n1, ws)
  | 0x31#6 =>
    match n0 with
    | 0x0#4 => .ok (.extsb n1, ws)
    | 0x7#4 => .ok (.extsl n1, ws)
    | 0xA#4 => .ok (.exts n1, ws)
    | _ => noForm w
  | 0x32#6 =>
    match n0 with
    | 0x0#4 => .ok (.rlb n1 false, ws)
    | 0x1#4 => takeWord ws fun v ws => .ok (shiftByte (v.truncate 8) (.sllb n1) (.srlb n1), ws)
    | 0x2#4 => .ok (.rlb n1 true, ws)
    | 0x3#4 => takeWord ws fun v ws => .ok (.sdlb n1 (n2Of v), ws)
    | 0x4#4 => .ok (.rrb n1 false, ws)
    | 0x6#4 => .ok (.rrb n1 true, ws)
    | 0x8#4 => .ok (.rlcb n1 false, ws)
    | 0x9#4 => takeWord ws fun v ws => .ok (shiftByte (v.truncate 8) (.slab n1) (.srab n1), ws)
    | 0xA#4 => .ok (.rlcb n1 true, ws)
    | 0xB#4 => takeWord ws fun v ws => .ok (.sdab n1 (n2Of v), ws)
    | 0xC#4 => .ok (.rrcb n1 false, ws)
    | 0xE#4 => .ok (.rrcb n1 true, ws)
    | _ => noForm w
  | 0x33#6 =>
    match n0 with
    | 0x0#4 => .ok (.rl n1 false, ws)
    | 0x1#4 => takeWord ws fun v ws => .ok (shiftWord v (.sll n1) (.srl n1), ws)
    | 0x2#4 => .ok (.rl n1 true, ws)
    | 0x3#4 => takeWord ws fun v ws => .ok (.sdl n1 (n2Of v), ws)
    | 0x4#4 => .ok (.rr n1 false, ws)
    | 0x5#4 => takeWord ws fun v ws => .ok (shiftWord v (.slll n1) (.srll n1), ws)
    | 0x6#4 => .ok (.rr n1 true, ws)
    | 0x7#4 => takeWord ws fun v ws => .ok (.sdll n1 (n2Of v), ws)
    | 0x8#4 => .ok (.rlc n1 false, ws)
    | 0x9#4 => takeWord ws fun v ws => .ok (shiftWord v (.sla n1) (.sra n1), ws)
    | 0xA#4 => .ok (.rlc n1 true, ws)
    | 0xB#4 => takeWord ws fun v ws => .ok (.sda n1 (n2Of v), ws)
    | 0xC#4 => .ok (.rrc n1 false, ws)
    | 0xD#4 => takeWord ws fun v ws => .ok (shiftWord v (.slal n1) (.sral n1), ws)
    | 0xE#4 => .ok (.rrc n1 true, ws)
    | 0xF#4 => takeWord ws fun v ws => .ok (.sdal n1 (n2Of v), ws)
    | _ => noForm w
  | 0x34#6 => .ok (.adcb n0 n1, ws)
  | 0x35#6 => .ok (.adc n0 n1, ws)
  | 0x36#6 => .ok (.sbcb n0 n1, ws)
  | 0x37#6 => .ok (.sbc n0 n1, ws)
  | 0x38#6 =>
    match n0 with
    | 0x0#4 => nonZero w n1 (takeWord ws fun v ws => .ok (.trib n1 (n1Of v) (n2Of v), ws))
    | 0x2#4 => nonZero w n1 (takeWord ws fun v ws => .ok (.trtib n1 (n1Of v) (n2Of v), ws))
    | 0x4#4 => nonZero w n1 (takeWord ws fun v ws => .ok (.trirb n1 (n1Of v) (n2Of v), ws))
    | 0x6#4 => nonZero w n1 (takeWord ws fun v ws => .ok (.trtirb n1 (n1Of v) (n2Of v), ws))
    | 0x8#4 => nonZero w n1 (takeWord ws fun v ws => .ok (.trdb n1 (n1Of v) (n2Of v), ws))
    | 0xA#4 => nonZero w n1 (takeWord ws fun v ws => .ok (.trtdb n1 (n1Of v) (n2Of v), ws))
    | 0xC#4 => nonZero w n1 (takeWord ws fun v ws => .ok (.trdrb n1 (n1Of v) (n2Of v), ws))
    | 0xE#4 => nonZero w n1 (takeWord ws fun v ws => .ok (.trtdrb n1 (n1Of v) (n2Of v), ws))
    | _ => noForm w
  | 0x3A#6 =>
    match n0 with
    | 0x0#4 => nonZero w n1 (takeWord ws fun v ws => .ok (.cpib (n1Of v) n1 (n2Of v) (Cond.ofCode (n0Of v)), ws))
    | 0x1#4 => nonZero w n1 (blockPair ws (.ldib · n1 ·) (.ldirb · n1 ·))
    | 0x2#4 => nonZero w n1 (takeWord ws fun v ws => .ok (.cpsib (n1Of v) n1 (n2Of v) (Cond.ofCode (n0Of v)), ws))
    | 0x4#4 => nonZero w n1 (takeWord ws fun v ws => .ok (.cpirb (n1Of v) n1 (n2Of v) (Cond.ofCode (n0Of v)), ws))
    | 0x6#4 => nonZero w n1 (takeWord ws fun v ws => .ok (.cpsirb (n1Of v) n1 (n2Of v) (Cond.ofCode (n0Of v)), ws))
    | 0x8#4 => nonZero w n1 (takeWord ws fun v ws => .ok (.cpdb (n1Of v) n1 (n2Of v) (Cond.ofCode (n0Of v)), ws))
    | 0x9#4 => nonZero w n1 (blockPair ws (.lddb · n1 ·) (.lddrb · n1 ·))
    | 0xA#4 => nonZero w n1 (takeWord ws fun v ws => .ok (.cpsdb (n1Of v) n1 (n2Of v) (Cond.ofCode (n0Of v)), ws))
    | 0xC#4 => nonZero w n1 (takeWord ws fun v ws => .ok (.cpdrb (n1Of v) n1 (n2Of v) (Cond.ofCode (n0Of v)), ws))
    | 0xE#4 => nonZero w n1 (takeWord ws fun v ws => .ok (.cpsdrb (n1Of v) n1 (n2Of v) (Cond.ofCode (n0Of v)), ws))
    | _ => noForm w
  | 0x3B#6 =>
    match n0 with
    | 0x0#4 => nonZero w n1 (takeWord ws fun v ws => .ok (.cpi (n1Of v) n1 (n2Of v) (Cond.ofCode (n0Of v)), ws))
    | 0x1#4 => nonZero w n1 (blockPair ws (.ldi · n1 ·) (.ldir · n1 ·))
    | 0x2#4 => nonZero w n1 (takeWord ws fun v ws => .ok (.cpsi (n1Of v) n1 (n2Of v) (Cond.ofCode (n0Of v)), ws))
    | 0x4#4 => nonZero w n1 (takeWord ws fun v ws => .ok (.cpir (n1Of v) n1 (n2Of v) (Cond.ofCode (n0Of v)), ws))
    | 0x6#4 => nonZero w n1 (takeWord ws fun v ws => .ok (.cpsir (n1Of v) n1 (n2Of v) (Cond.ofCode (n0Of v)), ws))
    | 0x8#4 => nonZero w n1 (takeWord ws fun v ws => .ok (.cpd (n1Of v) n1 (n2Of v) (Cond.ofCode (n0Of v)), ws))
    | 0x9#4 => nonZero w n1 (blockPair ws (.ldd · n1 ·) (.lddr · n1 ·))
    | 0xA#4 => nonZero w n1 (takeWord ws fun v ws => .ok (.cpsd (n1Of v) n1 (n2Of v) (Cond.ofCode (n0Of v)), ws))
    | 0xC#4 => nonZero w n1 (takeWord ws fun v ws => .ok (.cpdr (n1Of v) n1 (n2Of v) (Cond.ofCode (n0Of v)), ws))
    | 0xE#4 => nonZero w n1 (takeWord ws fun v ws => .ok (.cpsdr (n1Of v) n1 (n2Of v) (Cond.ofCode (n0Of v)), ws))
    | _ => noForm w
  | 0x3C#6 => .ok (.rrdb n0 n1, ws)
  | 0x3D#6 => .ok (.ldk n1 n0, ws)
  | 0x3E#6 => .ok (.rldb n0 n1, ws)
  | _ => noForm w

/-- First words with mode bits 11, the compact formats (R104). -/
def decode11 (kind : BitVec 2) (n2 n1 n0 : Nibble) (ws : List Word) : Decoded :=
  match kind with
  | 0x0#2 => .ok (.ldbShort n2 (n1 ++ n0), ws)
  | 0x1#2 => .ok (.calr (n2 ++ n1 ++ n0), ws)
  | 0x2#2 => .ok (.jr (Cond.ofCode n2) (n1 ++ n0), ws)
  | _ => .ok (if n1.getLsbD 3 then .djnz n2 (n1.extractLsb' 0 3 ++ n0) else .dbjnz n2 (n1.extractLsb' 0 3 ++ n0), ws)

/-- Decode the first instruction of a sequence of words (R144). -/
def decode : List Word → Decoded
  | [] => .error .truncated
  | w :: ws =>
    match trapInstr w with
    | some i => .ok (i, ws)
    | none =>
      match modeOf w with
      | 0b00#2 => decode00 w (opOf w) (n1Of w) (n0Of w) ws
      | 0b01#2 => decode01 w (opOf w) (n1Of w) (n0Of w) ws
      | 0b10#2 => decode10 w (opOf w) (n1Of w) (n0Of w) ws
      | _ => decode11 (kindOf w) (n2Of w) (n1Of w) (n0Of w) ws

/-- Words from bytes, the most significant byte of each first (R100, 20_memory.md R64); an odd last byte is dropped. -/
def wordsOfBytes : List Byte → List Word
  | hi :: lo :: bs => (hi ++ lo) :: wordsOfBytes bs
  | _ => []

/-- Bytes from words, in the order of `wordsOfBytes`. -/
def bytesOfWords : List Word → List Byte
  | [] => []
  | w :: ws => w.extractLsb' 8 8 :: w.extractLsb' 0 8 :: bytesOfWords ws

/-- Decode the first instruction of a sequence of bytes; what remains is given as words. -/
def decodeBytes (bs : List Byte) : Decoded := decode (wordsOfBytes bs)

/-! The encoder. -/

/-- The mode bits of a memory operand (R103). -/
def Mem.mode : Mem → BitVec 2
  | .ir _ => 0b00#2 | .da _ => 0b01#2 | .x _ _ => 0b01#2

/-- The register field of a memory operand (R103). -/
def Mem.field : Mem → Nibble
  | .ir r => r | .da _ => 0x0#4 | .x _ r => r

/-- The address word of a memory operand, if it has one (R101). -/
def Mem.words : Mem → List Word
  | .ir _ => [] | .da a => [a] | .x a _ => [a]

/-- A first word with a memory operand in bits 15:14 and 7:4 and a field in bits 3:0, and its address word. -/
def encodeMem (op : BitVec 6) (m : Mem) (n0 : Nibble) : List Word := word1 m.mode op m.field n0 :: m.words

/-- The same with a register or memory operand (R139). -/
def encodeDst (op : BitVec 6) (dst : Dst) (n0 : Nibble) : List Word :=
  match dst with
  | .reg d => [word1 0b10#2 op d n0]
  | .mem m => encodeMem op m n0

/-- PUSH and POP: the stack register in bits 7:4, the other operand in bits 15:14 and 3:0 (43_load_store.md R400). -/
def encodeStack (op : BitVec 6) (sp : RegCode) (o : Dst) : List Word :=
  match o with
  | .reg d => [word1 0b10#2 op sp d]
  | .mem m => word1 m.mode op sp m.field :: m.words

/-- The five-mode instructions (R138), byte form. -/
def encodeSrc8 (op : BitVec 6) (src : Src 8) (d : Nibble) : List Word :=
  match src with
  | .reg s => [word1 0b10#2 op s d]
  | .imm v => [word1 0b00#2 op 0x0#4 d, v ++ v]
  | .mem m => encodeMem op m d

/-- The five-mode instructions, word form. -/
def encodeSrc16 (op : BitVec 6) (src : Src 16) (d : Nibble) : List Word :=
  match src with
  | .reg s => [word1 0b10#2 op s d]
  | .imm v => [word1 0b00#2 op 0x0#4 d, v]
  | .mem m => encodeMem op m d

/-- The five-mode instructions, long form. -/
def encodeSrc32 (op : BitVec 6) (src : Src 32) (d : Nibble) : List Word :=
  match src with
  | .reg s => [word1 0b10#2 op s d]
  | .imm v => [word1 0b00#2 op 0x0#4 d, v.extractLsb' 16 16, v.extractLsb' 0 16]
  | .mem m => encodeMem op m d

/-- LDB (43_load_store.md R361, R367): `op` for R, IM, IR, DA, X and `bop` for BA and BX. -/
def encodeLd8 (op bop : BitVec 6) (src : LdSrc 8) (d : Nibble) : List Word :=
  match src with
  | .reg s => [word1 0b10#2 op s d]
  | .imm v => [word1 0b00#2 op 0x0#4 d, v ++ v]
  | .mem m => encodeMem op m d
  | .ba r v => [word1 0b00#2 bop r d, v]
  | .bx r x => [word1 0b01#2 bop r d, word2 x 0x0#4 0x0#4]

/-- LD (R360, R366). -/
def encodeLd16 (op bop : BitVec 6) (src : LdSrc 16) (d : Nibble) : List Word :=
  match src with
  | .reg s => [word1 0b10#2 op s d]
  | .imm v => [word1 0b00#2 op 0x0#4 d, v]
  | .mem m => encodeMem op m d
  | .ba r v => [word1 0b00#2 bop r d, v]
  | .bx r x => [word1 0b01#2 bop r d, word2 x 0x0#4 0x0#4]

/-- LDL (R362, R368). -/
def encodeLd32 (op bop : BitVec 6) (src : LdSrc 32) (d : Nibble) : List Word :=
  match src with
  | .reg s => [word1 0b10#2 op s d]
  | .imm v => [word1 0b00#2 op 0x0#4 d, v.extractLsb' 16 16, v.extractLsb' 0 16]
  | .mem m => encodeMem op m d
  | .ba r v => [word1 0b00#2 bop r d, v]
  | .bx r x => [word1 0b01#2 bop r d, word2 x 0x0#4 0x0#4]

/-- The stores of LD, LDB and LDL (R363 to R365). -/
def encodeLdDst (op bop : BitVec 6) (dst : LdDst) (s : Nibble) : List Word :=
  match dst with
  | .mem m => encodeMem op m s
  | .ba r v => [word1 0b00#2 bop r s, v]
  | .bx r x => [word1 0b01#2 bop r s, word2 x 0x0#4 0x0#4]

/-- LDA (R380). -/
def encodeLda (src : LdaSrc) (d : Nibble) : List Word :=
  match src with
  | .da a => [word1 0b01#2 0x36#6 0x0#4 d, a]
  | .x a r => [word1 0b01#2 0x36#6 r d, a]
  | .ba r v => [word1 0b00#2 0x34#6 r d, v]
  | .bx r x => [word1 0b01#2 0x34#6 r d, word2 x 0x0#4 0x0#4]

/-- LDM: the second opcode word stands before the address word (R393). -/
def encodeLdm (m : Mem) (n0 : Nibble) (second : Word) : List Word :=
  word1 m.mode 0x1C#6 m.field n0 :: second :: m.words

/-- IN and INB: `iop` for the IR form, `dop` for the DA form (46_io.md R522). -/
def encodeIn (iop dop : BitVec 6) (p : Port) (d : Nibble) : List Word :=
  match p with
  | .ir r => [word1 0b00#2 iop r d]
  | .da v => [word1 0b00#2 dop d 0x4#4, v]

/-- OUT and OUTB (R526). -/
def encodeOut (iop dop : BitVec 6) (p : Port) (s : Nibble) : List Word :=
  match p with
  | .ir r => [word1 0b00#2 iop r s]
  | .da v => [word1 0b00#2 dop s 0x6#4, v]

/-- The words of an instruction, from the encoding tables (spec/opcode_table.json). Bits the hardware ignores (R118) are
written as the tables print them. For a well-formed instruction `decode` reads it back. -/
def encode : Instr → List Word
  | .adc d s => [word1 0b10#2 0x35#6 s d]
  | .adcb d s => [word1 0b10#2 0x34#6 s d]
  | .add d src => encodeSrc16 0x01#6 src d
  | .addb d src => encodeSrc8 0x00#6 src d
  | .addl d src => encodeSrc32 0x16#6 src d
  | .cp d src => encodeSrc16 0x0B#6 src d
  | .cpb d src => encodeSrc8 0x0A#6 src d
  | .cpl d src => encodeSrc32 0x10#6 src d
  | .cpMem m v => encodeMem 0x0D#6 m 0x1#4 ++ [v]
  | .cpbMem m v => encodeMem 0x0C#6 m 0x1#4 ++ [v ++ v]
  | .dab d => [word1 0b10#2 0x30#6 d 0x0#4]
  | .dec dst n => encodeDst 0x2B#6 dst n
  | .decb dst n => encodeDst 0x2A#6 dst n
  | .div d src => encodeSrc16 0x1B#6 src d
  | .divl d src => encodeSrc32 0x1A#6 src d
  | .exts d => [word1 0b10#2 0x31#6 d 0xA#4]
  | .extsb d => [word1 0b10#2 0x31#6 d 0x0#4]
  | .extsl d => [word1 0b10#2 0x31#6 d 0x7#4]
  | .inc dst n => encodeDst 0x29#6 dst n
  | .incb dst n => encodeDst 0x28#6 dst n
  | .mult d src => encodeSrc16 0x19#6 src d
  | .multl d src => encodeSrc32 0x18#6 src d
  | .neg dst => encodeDst 0x0D#6 dst 0x2#4
  | .negb dst => encodeDst 0x0C#6 dst 0x2#4
  | .sbc d s => [word1 0b10#2 0x37#6 s d]
  | .sbcb d s => [word1 0b10#2 0x36#6 s d]
  | .sub d src => encodeSrc16 0x03#6 src d
  | .subb d src => encodeSrc8 0x02#6 src d
  | .subl d src => encodeSrc32 0x12#6 src d
  | .and d src => encodeSrc16 0x07#6 src d
  | .andb d src => encodeSrc8 0x06#6 src d
  | .or d src => encodeSrc16 0x05#6 src d
  | .orb d src => encodeSrc8 0x04#6 src d
  | .xor d src => encodeSrc16 0x09#6 src d
  | .xorb d src => encodeSrc8 0x08#6 src d
  | .com dst => encodeDst 0x0D#6 dst 0x0#4
  | .comb dst => encodeDst 0x0C#6 dst 0x0#4
  | .bit dst b => encodeDst 0x27#6 dst b
  | .bitb dst b => encodeDst 0x26#6 dst (0#1 ++ b)
  | .bitDyn d s => [word1 0b00#2 0x27#6 0x0#4 s, word2 d 0x0#4 0x0#4]
  | .bitbDyn d s => [word1 0b00#2 0x26#6 0x0#4 s, word2 d 0x0#4 0x0#4]
  | .res dst b => encodeDst 0x23#6 dst b
  | .resb dst b => encodeDst 0x22#6 dst (0#1 ++ b)
  | .resDyn d s => [word1 0b00#2 0x23#6 0x0#4 s, word2 d 0x0#4 0x0#4]
  | .resbDyn d s => [word1 0b00#2 0x22#6 0x0#4 s, word2 d 0x0#4 0x0#4]
  | .set dst b => encodeDst 0x25#6 dst b
  | .setb dst b => encodeDst 0x24#6 dst (0#1 ++ b)
  | .setDyn d s => [word1 0b00#2 0x25#6 0x0#4 s, word2 d 0x0#4 0x0#4]
  | .setbDyn d s => [word1 0b00#2 0x24#6 0x0#4 s, word2 d 0x0#4 0x0#4]
  | .comflg f => [word1 0b10#2 0x0D#6 f 0x5#4]
  | .resflg f => [word1 0b10#2 0x0D#6 f 0x3#4]
  | .setflg f => [word1 0b10#2 0x0D#6 f 0x1#4]
  | .tcc cc d => [word1 0b10#2 0x2F#6 d cc.code]
  | .tccb cc d => [word1 0b10#2 0x2E#6 d cc.code]
  | .test dst => encodeDst 0x0D#6 dst 0x4#4
  | .testb dst => encodeDst 0x0C#6 dst 0x4#4
  | .testl dst => encodeDst 0x1C#6 dst 0x8#4
  | .tset dst => encodeDst 0x0D#6 dst 0x6#4
  | .tsetb dst => encodeDst 0x0C#6 dst 0x6#4
  | .call m => encodeMem 0x1F#6 m 0x0#4
  | .calr disp => [compact 0x1#2 (disp.extractLsb' 8 4) (disp.extractLsb' 4 4) (disp.extractLsb' 0 4)]
  | .djnz r disp => [compact 0x3#2 r (1#1 ++ disp.extractLsb' 4 3) (disp.extractLsb' 0 4)]
  | .dbjnz r disp => [compact 0x3#2 r (0#1 ++ disp.extractLsb' 4 3) (disp.extractLsb' 0 4)]
  | .jp cc m => encodeMem 0x1E#6 m cc.code
  | .jr cc disp => [compact 0x2#2 cc.code (disp.extractLsb' 4 4) (disp.extractLsb' 0 4)]
  | .ret cc => [word1 0b10#2 0x1E#6 0x0#4 cc.code]
  | .clr dst => encodeDst 0x0D#6 dst 0x8#4
  | .clrb dst => encodeDst 0x0C#6 dst 0x8#4
  | .ex d src => encodeDst 0x2D#6 src d
  | .exb d src => encodeDst 0x2C#6 src d
  | .ld d src => encodeLd16 0x21#6 0x31#6 src d
  | .ldb d src => encodeLd8 0x20#6 0x30#6 src d
  | .ldl d src => encodeLd32 0x14#6 0x35#6 src d
  | .ldbShort d v => [compact 0x0#2 d (v.extractLsb' 4 4) (v.extractLsb' 0 4)]
  | .ldStore dst s => encodeLdDst 0x2F#6 0x33#6 dst s
  | .ldbStore dst s => encodeLdDst 0x2E#6 0x32#6 dst s
  | .ldlStore dst s => encodeLdDst 0x1D#6 0x37#6 dst s
  | .ldImm m v => encodeMem 0x0D#6 m 0x5#4 ++ [v]
  | .ldbImm m v => encodeMem 0x0C#6 m 0x5#4 ++ [v ++ v]
  | .lda d src => encodeLda src d
  | .ldar d v => [word1 0b00#2 0x34#6 0x0#4 d, v]
  | .ldk d v => [word1 0b10#2 0x3D#6 d v]
  | .ldm d m n => encodeLdm m 0x1#4 (word2 d 0x0#4 n)
  | .ldmStore m s n => encodeLdm m 0x9#4 (word2 s 0x0#4 n)
  | .ldr d v => [word1 0b00#2 0x31#6 0x0#4 d, v]
  | .ldrStore v s => [word1 0b00#2 0x33#6 0x0#4 s, v]
  | .ldrb d v => [word1 0b00#2 0x30#6 0x0#4 d, v]
  | .ldrbStore v s => [word1 0b00#2 0x32#6 0x0#4 s, v]
  | .ldrl d v => [word1 0b00#2 0x35#6 0x0#4 d, v]
  | .ldrlStore v s => [word1 0b00#2 0x37#6 0x0#4 s, v]
  | .pop dst s => encodeStack 0x17#6 s dst
  | .popl dst s => encodeStack 0x15#6 s dst
  | .push d src => encodeStack 0x13#6 d src
  | .pushl d src => encodeStack 0x11#6 d src
  | .pushImm d v => [word1 0b00#2 0x0D#6 d 0x9#4, v]
  | .rl d two => [word1 0b10#2 0x33#6 d (if two then 0x2#4 else 0x0#4)]
  | .rlb d two => [word1 0b10#2 0x32#6 d (if two then 0x2#4 else 0x0#4)]
  | .rlc d two => [word1 0b10#2 0x33#6 d (if two then 0xA#4 else 0x8#4)]
  | .rlcb d two => [word1 0b10#2 0x32#6 d (if two then 0xA#4 else 0x8#4)]
  | .rr d two => [word1 0b10#2 0x33#6 d (if two then 0x6#4 else 0x4#4)]
  | .rrb d two => [word1 0b10#2 0x32#6 d (if two then 0x6#4 else 0x4#4)]
  | .rrc d two => [word1 0b10#2 0x33#6 d (if two then 0xE#4 else 0xC#4)]
  | .rrcb d two => [word1 0b10#2 0x32#6 d (if two then 0xE#4 else 0xC#4)]
  | .rldb d s => [word1 0b10#2 0x3E#6 s d]
  | .rrdb d s => [word1 0b10#2 0x3C#6 s d]
  | .sda d s => [word1 0b10#2 0x33#6 d 0xB#4, word2 s 0x0#4 0x0#4]
  | .sdab d s => [word1 0b10#2 0x32#6 d 0xB#4, word2 s 0x0#4 0x0#4]
  | .sdal d s => [word1 0b10#2 0x33#6 d 0xF#4, word2 s 0x0#4 0x0#4]
  | .sdl d s => [word1 0b10#2 0x33#6 d 0x3#4, word2 s 0x0#4 0x0#4]
  | .sdlb d s => [word1 0b10#2 0x32#6 d 0x3#4, word2 s 0x0#4 0x0#4]
  | .sdll d s => [word1 0b10#2 0x33#6 d 0x7#4, word2 s 0x0#4 0x0#4]
  | .sla d c => [word1 0b10#2 0x33#6 d 0x9#4, c]
  | .slab d c => [word1 0b10#2 0x32#6 d 0x9#4, 0x00#8 ++ c]
  | .slal d c => [word1 0b10#2 0x33#6 d 0xD#4, c]
  | .sll d c => [word1 0b10#2 0x33#6 d 0x1#4, c]
  | .sllb d c => [word1 0b10#2 0x32#6 d 0x1#4, 0x00#8 ++ c]
  | .slll d c => [word1 0b10#2 0x33#6 d 0x5#4, c]
  | .sra d c => [word1 0b10#2 0x33#6 d 0x9#4, c]
  | .srab d c => [word1 0b10#2 0x32#6 d 0x9#4, 0x00#8 ++ c]
  | .sral d c => [word1 0b10#2 0x33#6 d 0xD#4, c]
  | .srl d c => [word1 0b10#2 0x33#6 d 0x1#4, c]
  | .srlb d c => [word1 0b10#2 0x32#6 d 0x1#4, 0x00#8 ++ c]
  | .srll d c => [word1 0b10#2 0x33#6 d 0x5#4, c]
  | .cpd d s r cc => [word1 0b10#2 0x3B#6 s 0x8#4, word2 r d cc.code]
  | .cpdb d s r cc => [word1 0b10#2 0x3A#6 s 0x8#4, word2 r d cc.code]
  | .cpdr d s r cc => [word1 0b10#2 0x3B#6 s 0xC#4, word2 r d cc.code]
  | .cpdrb d s r cc => [word1 0b10#2 0x3A#6 s 0xC#4, word2 r d cc.code]
  | .cpi d s r cc => [word1 0b10#2 0x3B#6 s 0x0#4, word2 r d cc.code]
  | .cpib d s r cc => [word1 0b10#2 0x3A#6 s 0x0#4, word2 r d cc.code]
  | .cpir d s r cc => [word1 0b10#2 0x3B#6 s 0x4#4, word2 r d cc.code]
  | .cpirb d s r cc => [word1 0b10#2 0x3A#6 s 0x4#4, word2 r d cc.code]
  | .cpsd d s r cc => [word1 0b10#2 0x3B#6 s 0xA#4, word2 r d cc.code]
  | .cpsdb d s r cc => [word1 0b10#2 0x3A#6 s 0xA#4, word2 r d cc.code]
  | .cpsdr d s r cc => [word1 0b10#2 0x3B#6 s 0xE#4, word2 r d cc.code]
  | .cpsdrb d s r cc => [word1 0b10#2 0x3A#6 s 0xE#4, word2 r d cc.code]
  | .cpsi d s r cc => [word1 0b10#2 0x3B#6 s 0x2#4, word2 r d cc.code]
  | .cpsib d s r cc => [word1 0b10#2 0x3A#6 s 0x2#4, word2 r d cc.code]
  | .cpsir d s r cc => [word1 0b10#2 0x3B#6 s 0x6#4, word2 r d cc.code]
  | .cpsirb d s r cc => [word1 0b10#2 0x3A#6 s 0x6#4, word2 r d cc.code]
  | .ldd d s r => [word1 0b10#2 0x3B#6 s 0x9#4, word2 r d 0x8#4]
  | .lddb d s r => [word1 0b10#2 0x3A#6 s 0x9#4, word2 r d 0x8#4]
  | .lddr d s r => [word1 0b10#2 0x3B#6 s 0x9#4, word2 r d 0x0#4]
  | .lddrb d s r => [word1 0b10#2 0x3A#6 s 0x9#4, word2 r d 0x0#4]
  | .ldi d s r => [word1 0b10#2 0x3B#6 s 0x1#4, word2 r d 0x8#4]
  | .ldib d s r => [word1 0b10#2 0x3A#6 s 0x1#4, word2 r d 0x8#4]
  | .ldir d s r => [word1 0b10#2 0x3B#6 s 0x1#4, word2 r d 0x0#4]
  | .ldirb d s r => [word1 0b10#2 0x3A#6 s 0x1#4, word2 r d 0x0#4]
  | .trdb d s r => [word1 0b10#2 0x38#6 d 0x8#4, word2 r s 0x0#4]
  | .trdrb d s r => [word1 0b10#2 0x38#6 d 0xC#4, word2 r s 0x0#4]
  | .trib d s r => [word1 0b10#2 0x38#6 d 0x0#4, word2 r s 0x0#4]
  | .trirb d s r => [word1 0b10#2 0x38#6 d 0x4#4, word2 r s 0x0#4]
  | .trtdb s1 s2 r => [word1 0b10#2 0x38#6 s1 0xA#4, word2 r s2 0x0#4]
  | .trtdrb s1 s2 r => [word1 0b10#2 0x38#6 s1 0xE#4, word2 r s2 0xE#4]
  | .trtib s1 s2 r => [word1 0b10#2 0x38#6 s1 0x2#4, word2 r s2 0x0#4]
  | .trtirb s1 s2 r => [word1 0b10#2 0x38#6 s1 0x6#4, word2 r s2 0xE#4]
  | .inp d p => encodeIn 0x3D#6 0x3B#6 p d
  | .inb d p => encodeIn 0x3C#6 0x3A#6 p d
  | .sin d v => [word1 0b00#2 0x3B#6 d 0x5#4, v]
  | .sinb d v => [word1 0b00#2 0x3A#6 d 0x5#4, v]
  | .out p s => encodeOut 0x3F#6 0x3B#6 p s
  | .outb p s => encodeOut 0x3E#6 0x3A#6 p s
  | .sout v s => [word1 0b00#2 0x3B#6 s 0x7#4, v]
  | .soutb v s => [word1 0b00#2 0x3A#6 s 0x7#4, v]
  | .ind d s r => [word1 0b00#2 0x3B#6 s 0x8#4, word2 r d 0x8#4]
  | .indb d s r => [word1 0b00#2 0x3A#6 s 0x8#4, word2 r d 0x8#4]
  | .indr d s r => [word1 0b00#2 0x3B#6 s 0x8#4, word2 r d 0x0#4]
  | .indrb d s r => [word1 0b00#2 0x3A#6 s 0x8#4, word2 r d 0x0#4]
  | .ini d s r => [word1 0b00#2 0x3B#6 s 0x0#4, word2 r d 0x8#4]
  | .inib d s r => [word1 0b00#2 0x3A#6 s 0x0#4, word2 r d 0x8#4]
  | .inir d s r => [word1 0b00#2 0x3B#6 s 0x0#4, word2 r d 0x0#4]
  | .inirb d s r => [word1 0b00#2 0x3A#6 s 0x0#4, word2 r d 0x0#4]
  | .outd d s r => [word1 0b00#2 0x3B#6 s 0xA#4, word2 r d 0x8#4]
  | .outdb d s r => [word1 0b00#2 0x3A#6 s 0xA#4, word2 r d 0x8#4]
  | .otdr d s r => [word1 0b00#2 0x3B#6 s 0xA#4, word2 r d 0x0#4]
  | .otdrb d s r => [word1 0b00#2 0x3A#6 s 0xA#4, word2 r d 0x0#4]
  | .outi d s r => [word1 0b00#2 0x3B#6 s 0x2#4, word2 r d 0x8#4]
  | .outib d s r => [word1 0b00#2 0x3A#6 s 0x2#4, word2 r d 0x8#4]
  | .otir d s r => [word1 0b00#2 0x3B#6 s 0x2#4, word2 r d 0x0#4]
  | .otirb d s r => [word1 0b00#2 0x3A#6 s 0x2#4, word2 r d 0x0#4]
  | .sind d s r => [word1 0b00#2 0x3B#6 s 0x9#4, word2 r d 0x8#4]
  | .sindb d s r => [word1 0b00#2 0x3A#6 s 0x9#4, word2 r d 0x8#4]
  | .sindr d s r => [word1 0b00#2 0x3B#6 s 0x9#4, word2 r d 0x0#4]
  | .sindrb d s r => [word1 0b00#2 0x3A#6 s 0x9#4, word2 r d 0x0#4]
  | .sini d s r => [word1 0b00#2 0x3B#6 s 0x1#4, word2 r d 0x8#4]
  | .sinib d s r => [word1 0b00#2 0x3A#6 s 0x1#4, word2 r d 0x8#4]
  | .sinir d s r => [word1 0b00#2 0x3B#6 s 0x1#4, word2 r d 0x0#4]
  | .sinirb d s r => [word1 0b00#2 0x3A#6 s 0x1#4, word2 r d 0x0#4]
  | .soutd d s r => [word1 0b00#2 0x3B#6 s 0xB#4, word2 r d 0x8#4]
  | .soutdb d s r => [word1 0b00#2 0x3A#6 s 0xB#4, word2 r d 0x8#4]
  | .sotdr d s r => [word1 0b00#2 0x3B#6 s 0xB#4, word2 r d 0x0#4]
  | .sotdrb d s r => [word1 0b00#2 0x3A#6 s 0xB#4, word2 r d 0x0#4]
  | .souti d s r => [word1 0b00#2 0x3B#6 s 0x3#4, word2 r d 0x8#4]
  | .soutib d s r => [word1 0b00#2 0x3A#6 s 0x3#4, word2 r d 0x8#4]
  | .sotir d s r => [word1 0b00#2 0x3B#6 s 0x3#4, word2 r d 0x0#4]
  | .sotirb d s r => [word1 0b00#2 0x3A#6 s 0x3#4, word2 r d 0x0#4]
  | .di vn => [word1 0b01#2 0x3C#6 0x0#4 (0b00#2 ++ vn)]
  | .ei vn => [word1 0b01#2 0x3C#6 0x0#4 (0b01#2 ++ vn)]
  | .halt => [word1 0b01#2 0x3A#6 0x0#4 0x0#4]
  | .iret => [word1 0b01#2 0x3B#6 0x0#4 0x0#4]
  | .ldctlTo c s => [word1 0b01#2 0x3D#6 s (0b1#1 ++ c.code)]
  | .ldctlFrom d c => [word1 0b01#2 0x3D#6 d (0b0#1 ++ c.code)]
  | .ldctlbTo s => [word1 0b10#2 0x0C#6 s 0x9#4]
  | .ldctlbFrom d => [word1 0b10#2 0x0C#6 d 0x1#4]
  | .ldps m => encodeMem 0x39#6 m 0x0#4
  | .mbit => [word1 0b01#2 0x3B#6 0x0#4 0xA#4]
  | .mreq d => [word1 0b01#2 0x3B#6 d 0xD#4]
  | .mres => [word1 0b01#2 0x3B#6 0x0#4 0x9#4]
  | .mset => [word1 0b01#2 0x3B#6 0x0#4 0x8#4]
  | .nop => [word1 0b10#2 0x0D#6 0x0#4 0x7#4]
  | .sc v => [word1 0b01#2 0x3F#6 (v.extractLsb' 4 4) (v.extractLsb' 0 4)]
  | .ldEpu w => [w]
  | .ldbEpu w => [w]
  | .epui w => [w]
  | .trappedReserved w => [w]
  | .trappedEpu w => [w]
  | .trappedReservedSc w => [w]

/-- The bytes of an instruction, in the order of memory (R100). -/
def encodeBytes (i : Instr) : List Byte := bytesOfWords (encode i)

/-- The first word of an instruction: the identifier a trap pushes (60_exceptions.md R701). -/
def firstWord (i : Instr) : Word := (encode i).headD 0

/-- The length of an instruction in bytes: two per word (R101). A trapped opcode counts its first word only, since the
trap looks at no other (R140). -/
def byteLength (i : Instr) : Nat := 2 * (encode i).length

/-- What the decoder reads from an instruction whose bits are `w`, numbered as spec/opcode_table.json numbers them: bit
0 is the least significant bit of the first word, the second word is bits 31:16, the third bits 47:32; `nbits` bits are
given and the rest are 0. The words are laid out as bytes, most significant first, and read back. -/
def decodeTableWord (nbits w : Nat) : Option Instr :=
  let v := w % 2 ^ nbits
  let words : List Word := [BitVec.ofNat 16 v, BitVec.ofNat 16 (v / 2 ^ 16), BitVec.ofNat 16 (v / 2 ^ 32)]
  match decodeBytes (bytesOfWords words) with
  | .ok (i, _) => some i
  | .error _ => none

end Sys2Proof
end

