-- ==== Sys2Proof/Machine/State.lean ====
section
/-!
DEFINITION. Machine/State.lean: the state of the Y8002 (10_state.md R20) as plain data, the reasons a step can stop, and
the state after reset (R41). The fields `inputs`, `events` and `clock` are the MODEL's own, not the spec's: what the
environment asserts at the steps to come, what it has been shown so far, and a counter that keeps free values apart.
-/

namespace Sys2Proof.Machine

open Sys2Proof

/-- What the environment asserts at one step (10_state.md R36, 60_exceptions.md R710, 92_eei_decisions.md D17): the
levels of RESETF, VIB and NVIB as "asserted", and whether NMIB has had a falling edge. -/
structure Sample where
  /-- RESETF is asserted (70_reset_and_hazards.md R800) -/
  reset : Bool
  /-- NMIB has had a falling edge (R714) -/
  nmiEdge : Bool
  /-- VIB is asserted (R716) -/
  vi : Bool
  /-- NVIB is asserted (R715) -/
  nvi : Bool
deriving DecidableEq, Repr

/-- The environment asserts nothing. -/
def Sample.quiet : Sample := { reset := false, nmiEdge := false, vi := false, nvi := false }

/-- The machine (R20). -/
structure State where
  /-- R0 to R15; element 15 is the system stack pointer (R21, R25) -/
  regs : Vector Word 16
  /-- the program counter (R26) -/
  pc : Word
  /-- the Flag and Control Word (R28) -/
  fcw : Word
  /-- the Program Status Area Pointer (R31) -/
  psap : Word
  /-- the refresh control register (R32) -/
  refresh : Word
  /-- the normal stack pointer (R33) -/
  nsp : Word
  /-- the multi-micro output latch MO: the level of pin MOB, true for High (R35, 47_system.md R596) -/
  mo : Bool
  /-- the non-maskable interrupt pending latch NMIP (R35) -/
  nmip : Bool
  /-- the halted condition (R35) -/
  halted : Bool
  /-- the bytes of memory that differ from what an unwritten byte reads as, addresses strictly rising (20_memory.md
  R60, R64) -/
  mem : List Host.Cell
  /-- MODEL: what the environment asserts at the next steps, one entry a step; when it is empty, nothing -/
  inputs : List Sample
  /-- MODEL: the output events so far, oldest first (00_scope.md R14) -/
  events : List Event
  /-- MODEL: steps taken; free values are read at it -/
  clock : Nat
deriving DecidableEq, Repr

/-- The hardware has no fault: every exception is taken (60_exceptions.md R700, "There is no other exception"), and no
address of a 64 Kbyte space is outside it (20_memory.md R71, R77). So no step answers a fault. -/
inductive Fault where
deriving DecidableEq, Repr

/-- Where the spec says `refuse`: it "defines no behaviour; the model must not continue" (00_scope.md R11, R12). Each is
safe: the hardware goes on in a way the manual does not give. -/
inductive Refusal where
  /-- the instruction has no meaning in the model yet; raised by no arm of this model; safe -/
  | notModelled (mnemonic : String)
  /-- the words at the pc are no instruction (30_encoding.md R142, R116, 45_block_string.md R479), raised by `step`; in
  Normal mode block input and output trap instead; safe -/
  | undecodable (why : DecodeError)
  /-- a word or long access at an odd address (20_memory.md R67, D4), raised by the word and long accesses; safe -/
  | misalignedAccess
  /-- an instruction fetch at an odd pc (10_state.md R26, D4), raised by `step`; safe -/
  | oddProgramCounter
  /-- a pair code that is odd or a quadruple code that is not a multiple of four (10_state.md R37, D5), raised by the
  accesses to pairs and quadruples; safe -/
  | illegalRegisterCode
  /-- registers that "must be separate and non-overlapping" overlap (70_reset_and_hazards.md R811, D6), raised by the
  meanings of those instructions; safe -/
  | overlappingRegisters
  /-- R0 as a pointer register in a second word (30_encoding.md R111, D15), raised by the block instructions; safe -/
  | zeroPointerRegister
deriving DecidableEq, Repr

/-- The machine right after reset (10_state.md R41). The spec gives PSAP 0, REFRESH bit 15 = 0, MO High, NMIP clear and
not halted; FCW and PC are the words at PROGRAM 0x0002 and 0x0004, which in a memory nothing has written are 0, so that
FCW is `fcw_mask 0` = 0x4000 and PC is 0. R0 to R15, NSP and REFRESH bits 14:0 are "unspecified at power-up": 0 here,
DESIGN CHOICE, unsafe (notes/assumptions/1.md). -/
def State.reset : State where
  regs := Vector.replicate 16 0x0000#16
  pc := 0x0000#16
  fcw := 0x4000#16
  psap := 0x0000#16
  refresh := 0x0000#16
  nsp := 0x0000#16
  mo := true
  nmip := false
  halted := false
  mem := []
  inputs := []
  events := []
  clock := 0

end Sys2Proof.Machine
end

