-- ==== Sys2Proof/Machine/Flags.lean ====
section
/-!
DEFINITION. Machine/Flags.lean: the Flag and Control Word and every flag computation of the spec: the layout and its mask
(10_state.md R28, R30), the condition codes (30_encoding.md R125), add and subtract (40_arithmetic.md R201, R202),
logic and parity (41_logical_bit.md R261), multiply and divide (R225 to R229, R237), decimal adjust (R220), rotate and
shift steps (44_rotate_shift.md R421, R435, R436).
-/

namespace Sys2Proof.Machine

open Sys2Proof

/-! The Flag and Control Word. -/

/-- What is stored when a whole word is loaded into the FCW (R30): bits 10:8, 1:0 and 15 are 0, SYS reads 1 in a design
without Normal mode, EPA reads 0 in one without EPUs. -/
def fcwMask (v : Word) : Word :=
  (v &&& 0x18FC#16) ||| (if Config.hasNormalMode then v &&& 0x4000#16 else 0x4000#16)
    ||| (if Config.hasEpa then v &&& 0x2000#16 else 0x0000#16)

/-- C, FCW bit 7 (R28). -/
def State.carry (s : State) : Bool := s.fcw.getLsbD 7
/-- Z, FCW bit 6. -/
def State.zero (s : State) : Bool := s.fcw.getLsbD 6
/-- S, FCW bit 5. -/
def State.sign (s : State) : Bool := s.fcw.getLsbD 5
/-- V, FCW bit 4: overflow or parity. -/
def State.overflow (s : State) : Bool := s.fcw.getLsbD 4
/-- D, FCW bit 3: decimal adjust. -/
def State.decimal (s : State) : Bool := s.fcw.getLsbD 3
/-- H, FCW bit 2: half carry. -/
def State.halfCarry (s : State) : Bool := s.fcw.getLsbD 2
/-- VIE, FCW bit 12: the vectored interrupt enable. -/
def State.vie (s : State) : Bool := s.fcw.getLsbD 12
/-- NVIE, FCW bit 11: the non-vectored interrupt enable. -/
def State.nvie (s : State) : Bool := s.fcw.getLsbD 11
/-- SYS, FCW bit 14: System mode. -/
def State.sys (s : State) : Bool := s.fcw.getLsbD 14

/-- Set or clear the bit of a word that a one-bit mask selects. -/
def putBit (w mask : Word) (b : Bool) : Word := if b then w ||| mask else w &&& ~~~mask

/-- Write a bit when there is a value for it; `none` leaves it. -/
def putFlag (mask : Word) (b : Option Bool) (w : Word) : Word :=
  match b with
  | none => w
  | some b => putBit w mask b

/-- What an instruction does to the six flags: `none` is "unaffected" (R40). -/
structure FlagWrite where
  c : Option Bool := none
  z : Option Bool := none
  s : Option Bool := none
  v : Option Bool := none
  d : Option Bool := none
  h : Option Bool := none
deriving DecidableEq, Repr

/-- The FCW after a write of flags; no other bit changes. -/
def FlagWrite.apply (f : FlagWrite) (fcw : Word) : Word :=
  putFlag 0x0080#16 f.c <| putFlag 0x0040#16 f.z <| putFlag 0x0020#16 f.s <| putFlag 0x0010#16 f.v <|
    putFlag 0x0008#16 f.d <| putFlag 0x0004#16 f.h fcw

/-- The state after a write of flags. -/
def State.setFlags (s : State) (f : FlagWrite) : State := { s with fcw := f.apply s.fcw }

/-- The truth of a condition on four flag values (R125). -/
def condHolds (cc : Cond) (c z s v : Bool) : Bool :=
  match cc with
  | .f => false
  | .lt => s ^^ v
  | .le => z || (s ^^ v)
  | .ule => c || z
  | .ov => v
  | .mi => s
  | .z => z
  | .c => c
  | .always => true
  | .ge => !(s ^^ v)
  | .gt => !(z || (s ^^ v))
  | .ugt => !c && !z
  | .nov => !v
  | .pl => !s
  | .nz => !z
  | .nc => !c

/-- The truth of a condition on the current flags (R125). -/
def State.cond (s : State) (cc : Cond) : Bool := condHolds cc s.carry s.zero s.sign s.overflow

/-! Add and subtract. -/

/-- A result of `n` bits and the flag values that go with it. -/
structure Alu (n : Nat) where
  value : BitVec n
  c : Bool
  z : Bool
  s : Bool
  v : Bool
  h : Bool

/-- The addition helper (R201). -/
def addWith {n : Nat} (a b : BitVec n) (carry : Bool) : Alu n :=
  let sum := a.toNat + b.toNat + carry.toNat
  let r := BitVec.ofNat n sum
  { value := r
    c := decide (2 ^ n ≤ sum)
    z := r == 0
    s := r.msb
    v := a.msb == b.msb && r.msb != a.msb
    h := decide (15 < a.toNat % 16 + b.toNat % 16 + carry.toNat) }

/-- The subtraction helper (R202): C and H are borrows. -/
def subWith {n : Nat} (a b : BitVec n) (borrow : Bool) : Alu n :=
  let diff : Int := (a.toNat : Int) - b.toNat - borrow.toNat
  let r := BitVec.ofInt n diff
  { value := r
    c := decide (diff < 0)
    z := r == 0
    s := r.msb
    v := a.msb != b.msb && r.msb != a.msb
    h := decide (a.toNat % 16 < b.toNat % 16 + borrow.toNat) }

/-- C, Z, S, V as the helper gives them; D and H unaffected (R210, R212, R214, R215). -/
def Alu.czsv {n : Nat} (a : Alu n) : FlagWrite := { c := a.c, z := a.z, s := a.s, v := a.v }

/-- ADDB and ADCB: H too, and D is cleared (R211, R213). -/
def Alu.byteAdd {n : Nat} (a : Alu n) : FlagWrite := { c := a.c, z := a.z, s := a.s, v := a.v, d := false, h := a.h }

/-- SUBB and SBCB: H too, and D is set (R241, R243). -/
def Alu.byteSub {n : Nat} (a : Alu n) : FlagWrite := { c := a.c, z := a.z, s := a.s, v := a.v, d := true, h := a.h }

/-- INC and DEC: Z, S, V only (R221, R233). -/
def Alu.zsv {n : Nat} (a : Alu n) : FlagWrite := { z := a.z, s := a.s, v := a.v }

/-! Logic. -/

/-- 1 when a byte has an even number of 1 bits (00_scope.md R11). -/
def parityEven (r : Byte) : Bool :=
  !(r.getLsbD 0 ^^ r.getLsbD 1 ^^ r.getLsbD 2 ^^ r.getLsbD 3 ^^ r.getLsbD 4 ^^ r.getLsbD 5 ^^ r.getLsbD 6 ^^
    r.getLsbD 7)

/-- The flags of a word or long logical result: Z and S; V unchanged (R261). -/
def logicFlags {n : Nat} (r : BitVec n) : FlagWrite := { z := r == 0, s := r.msb }

/-- The flags of a byte logical result: Z, S and even parity in V (R261). -/
def logicFlagsByte (r : Byte) : FlagWrite := { z := r == 0, s := r.msb, v := parityEven r }

/-! Multiply and divide. -/

/-- Whether an exact value is a two's-complement number of `n` bits. -/
def fitsSigned (n : Nat) (x : Int) : Bool := decide (-(2 ^ (n - 1)) ≤ x) && decide (x ≤ 2 ^ (n - 1) - 1)

/-- The multiply flags (R237): C says that the upper half of the product is needed; V is cleared. -/
def multFlags (n : Nat) (p : Int) : FlagWrite :=
  { c := !fitsSigned n p, z := decide (p = 0), s := decide (p < 0), v := false }

/-- The four cases of a division (R225 to R229), with quotient and remainder where the spec gives them. -/
inductive Division where
  /-- case 1: the quotient is an n-bit number (R226) -/
  | fits (q r : Int)
  /-- case 2: the divisor is zero (R227) -/
  | byZero
  /-- case 3: the quotient is too large (R228) -/
  | tooLarge
  /-- case 4: the quotient is an (n+1)-bit number (R229) -/
  | wide (q r : Int)
deriving DecidableEq, Repr

/-- Quotient and remainder of a non-zero divisor, by the sign the remainder takes (R225). -/
def quotRem (sign : Config.RemainderSign) (dividend divisor : Int) : Int × Int :=
  let q := dividend.tdiv divisor
  let r := dividend.tmod divisor
  match sign with
  | .dividend => (q, r)
  | .divisor => if r ≠ 0 ∧ decide (r < 0) ≠ decide (divisor < 0) then (q - 1, r + divisor) else (q, r)

/-- The division helper (R225): `n` is 16 for DIV and 32 for DIVL. -/
def divideInt (n : Nat) (dividend divisor : Int) : Division :=
  if divisor = 0 then .byZero
  else
    let (q, r) := quotRem Config.divRemSign dividend divisor
    if fitsSigned n q then .fits q r
    else if -(2 ^ n - 1) ≤ q ∧ q ≤ 2 ^ n - 1 then .wide q r
    else .tooLarge

/-- The flags of the four cases (R245). -/
def Division.flags : Division → FlagWrite
  | .fits q _ => { c := false, z := decide (q = 0), s := decide (q < 0), v := false }
  | .byZero => { c := false, z := true, s := false, v := true }
  | .tooLarge => { c := false, z := false, s := false, v := true }
  | .wide q _ => { c := true, z := false, s := decide (q < 0), v := true }

/-! Decimal adjust. -/

/-- The table of DAB (R220): the number added and C after, by D, C, the high digit, H and the low digit; `none` where no
row matches. -/
def dabTable (d c : Bool) (hi : Nat) (h : Bool) (lo : Nat) : Option (Byte × Bool) :=
  match d, c, h with
  | false, false, false =>
    if hi ≤ 9 ∧ lo ≤ 9 then some (0x00#8, false)
    else if hi ≤ 8 ∧ 10 ≤ lo then some (0x06#8, false)
    else if 10 ≤ hi ∧ lo ≤ 9 then some (0x60#8, true)
    else some (0x66#8, true)
  | false, false, true =>
    if hi ≤ 9 ∧ lo ≤ 3 then some (0x06#8, false)
    else if 10 ≤ hi ∧ lo ≤ 3 then some (0x66#8, true)
    else none
  | false, true, false =>
    if hi ≤ 2 ∧ lo ≤ 9 then some (0x60#8, true)
    else if hi ≤ 2 ∧ 10 ≤ lo then some (0x66#8, true)
    else none
  | false, true, true => if hi ≤ 3 ∧ lo ≤ 3 then some (0x66#8, true) else none
  | true, false, false => if hi ≤ 9 ∧ lo ≤ 9 then some (0x00#8, false) else none
  | true, false, true => if hi ≤ 8 ∧ 6 ≤ lo then some (0xFA#8, false) else none
  | true, true, false => if 7 ≤ hi ∧ lo ≤ 9 then some (0xA0#8, true) else none
  | true, true, true => if 6 ≤ hi ∧ 6 ≤ lo then some (0x9A#8, true) else none

/-! Rotate and shift. -/

/-- A value on its way through a rotate or shift: the value, the carry, and whether the sign bit has changed in any step
so far (R421, R435). -/
structure Shifting (n : Nat) where
  x : BitVec n
  c : Bool
  v : Bool

/-- The single-bit steps of the rotates and shifts (R421, R435). -/
inductive ShiftKind where
  | rl | rlc | rr | rrc | left | rightArithmetic | rightLogical
deriving DecidableEq, Repr

/-- The value after one step (R421, R435). -/
def shiftValue {n : Nat} (k : ShiftKind) (x : BitVec n) (c : Bool) : BitVec n :=
  match k with
  | .rl => (x <<< 1) ||| (if x.msb then 1#n else 0#n)
  | .rlc => (x <<< 1) ||| (if c then 1#n else 0#n)
  | .rr => (x >>> 1) ||| (if x.getLsbD 0 then 1#n <<< (n - 1) else 0#n)
  | .rrc => (x >>> 1) ||| (if c then 1#n <<< (n - 1) else 0#n)
  | .left => x <<< 1
  | .rightArithmetic => x.sshiftRight 1
  | .rightLogical => x >>> 1

/-- The bit that leaves in one step (R421, R435). -/
def shiftOut {n : Nat} (k : ShiftKind) (x : BitVec n) : Bool :=
  match k with
  | .rl | .rlc | .left => x.msb
  | .rr | .rrc | .rightArithmetic | .rightLogical => x.getLsbD 0

/-- One step. -/
def Shifting.step {n : Nat} (k : ShiftKind) (t : Shifting n) : Shifting n :=
  let y := shiftValue k t.x t.c
  { x := y, c := shiftOut k t.x, v := t.v || (y.msb != t.x.msb) }

/-- `times` steps. -/
def Shifting.steps {n : Nat} (k : ShiftKind) : Nat → Shifting n → Shifting n
  | 0, t => t
  | times + 1, t => Shifting.steps k times (t.step k)

/-- Rotate by one or two positions (R421). -/
def rotateBy {n : Nat} (k : ShiftKind) (two : Bool) (x : BitVec n) (c : Bool) : Shifting n :=
  Shifting.steps k (if two then 2 else 1) { x := x, c := c, v := false }

/-- The flags after a rotate or a shift by a count other than zero (R421, R435). -/
def Shifting.flags {n : Nat} (t : Shifting n) : FlagWrite := { c := t.c, z := t.x == 0, s := t.x.msb, v := t.v }

/-- Shift by a signed count: left when it is positive, right when it is negative (R435). -/
def shiftBy {n : Nat} (arithmetic : Bool) (x : BitVec n) (count : Int) : Shifting n :=
  let start : Shifting n := { x := x, c := false, v := false }
  if 0 ≤ count then Shifting.steps .left count.natAbs start
  else Shifting.steps (if arithmetic then .rightArithmetic else .rightLogical) count.natAbs start

/-- What a zero count does to C: a static shift and a dynamic long shift leave it, a dynamic byte or word shift clears it
(R436). -/
inductive ZeroCountCarry where
  | unaffected | cleared
deriving DecidableEq, Repr

/-- The flags of a shift by zero: Z and S from the unchanged value, V cleared, C by the form (R436). -/
def zeroCountFlags {n : Nat} (x : BitVec n) (carry : ZeroCountCarry) : FlagWrite :=
  { c := match carry with
      | .unaffected => none
      | .cleared => some false
    z := x == 0, s := x.msb, v := false }

/-- A shift, whole: the value and the flags (R435, R436). -/
def shiftResult {n : Nat} (arithmetic : Bool) (x : BitVec n) (count : Int) (carry : ZeroCountCarry) :
    BitVec n × FlagWrite :=
  if count = 0 then (x, zeroCountFlags x carry)
  else ((shiftBy arithmetic x count).x, (shiftBy arithmetic x count).flags)

end Sys2Proof.Machine
end

