-- ==== Sys2Proof/Machine/Ops.lean ====
section
/-!
DEFINITION. Machine/Ops.lean: the named operations over registers, memory, the stack, the I/O spaces and the pins, taking a
trap or an interrupt and a device reset. Every read and write of a register goes through `reg` and `setReg`, every byte
of memory through `readByte` and `writeByte`.
-/

namespace Sys2Proof.Machine

open Sys2Proof

/-- What a step or an instruction answers. -/
abbrev Result := Host.Outcome State Fault Refusal

/-- A computation that the spec may refuse. -/
abbrev Attempt (α : Type) := Except Refusal α

/-- The outcome of an attempt at a next state. -/
def finish (a : Attempt State) : Result :=
  match a with
  | .ok s => .next s
  | .error r => .refused r

/-! Registers (10_state.md R21 to R25, R37). -/

/-- A word register. In Normal mode R15 names NSP (R25, 60_exceptions.md R731). -/
def State.reg (s : State) (r : RegCode) : Word :=
  if r = 0xF#4 ∧ s.sys = false then s.nsp else s.regs[r.toNat]'(r.isLt)

/-- Write a word register. -/
def State.setReg (s : State) (r : RegCode) (v : Word) : State :=
  if r = 0xF#4 ∧ s.sys = false then { s with nsp := v } else { s with regs := s.regs.set r.toNat v r.isLt }

/-- The word register that holds a byte register (R22). -/
def byteHome (c : RegCode) : RegCode := c &&& 0x7#4

/-- A byte register: codes 0 to 7 are the high bytes of R0 to R7, codes 8 to 15 their low bytes (R22). -/
def State.byteReg (s : State) (c : RegCode) : Byte :=
  let w := s.reg (byteHome c)
  if c.getLsbD 3 then w.extractLsb' 0 8 else w.extractLsb' 8 8

/-- Write a byte register; the other byte of the word register is unchanged (R22). -/
def State.setByteReg (s : State) (c : RegCode) (v : Byte) : State :=
  let w := s.reg (byteHome c)
  s.setReg (byteHome c) (if c.getLsbD 3 then w.extractLsb' 8 8 ++ v else v ++ w.extractLsb' 0 8)

/-- Whether a code names a register pair: it is even (R23). -/
def pairCode (c : RegCode) : Bool := !c.getLsbD 0

/-- Whether a code names a register quadruple: it is a multiple of four (R24). -/
def quadCode (c : RegCode) : Bool := !c.getLsbD 0 && !c.getLsbD 1

/-- The contents of the pair starting at a code (R23). -/
def State.pairValue (s : State) (c : RegCode) : Long := s.reg c ++ s.reg (c + 1)

/-- The contents of the quadruple starting at a code (R24). -/
def State.quadValue (s : State) (c : RegCode) : Quad := s.pairValue c ++ s.pairValue (c + 2)

/-- A register pair; an odd code is refused (R37). -/
def State.pair (s : State) (c : RegCode) : Attempt Long :=
  if pairCode c then .ok (s.pairValue c) else .error .illegalRegisterCode

/-- Write the two registers from a code on, most significant word first (R23). -/
def State.setPairValue (s : State) (c : RegCode) (v : Long) : State :=
  (s.setReg c (v.extractLsb' 16 16)).setReg (c + 1) (v.extractLsb' 0 16)

/-- Write a register pair (R23, R37). -/
def State.setPair (s : State) (c : RegCode) (v : Long) : Attempt State :=
  if pairCode c then .ok (s.setPairValue c v) else .error .illegalRegisterCode

/-- A register quadruple; a code that is not a multiple of four is refused (R37). -/
def State.quad (s : State) (c : RegCode) : Attempt Quad :=
  if quadCode c then .ok (s.quadValue c) else .error .illegalRegisterCode

/-- Write a register quadruple (R24, R37). -/
def State.setQuad (s : State) (c : RegCode) (v : Quad) : Attempt State :=
  if quadCode c then
    .ok ((s.setPairValue c (v.extractLsb' 32 32)).setPairValue (c + 2) (v.extractLsb' 0 32))
  else .error .illegalRegisterCode

/-! Memory (20_memory.md). -/

/-- The byte at an address of the canonical list: the first entry with that address, or what an unwritten byte reads
as. -/
def Memory.read : List Host.Cell → Nat → Byte
  | [], _ => Config.unwrittenByte
  | (k, v) :: m, a => if k = a then v else Memory.read m a

/-- Put an entry before the first one with a greater address. -/
def Memory.insert (a : Nat) (v : Byte) : List Host.Cell → List Host.Cell
  | [] => [(a, v)]
  | (k, w) :: m => if a < k then (a, v) :: (k, w) :: m else (k, w) :: Memory.insert a v m

/-- Write a byte: its old entry goes, and a new one comes unless the byte is what an unlisted address reads as. -/
def Memory.write (m : List Host.Cell) (a : Nat) (v : Byte) : List Host.Cell :=
  let rest := m.filter fun cell => cell.1 != a
  if v = Config.unwrittenByte then rest else Memory.insert a v rest

/-- Addresses rise strictly from above `low`. -/
def Memory.rising (low : Nat) : List Host.Cell → Bool
  | [] => true
  | (k, _) :: m => decide (low ≤ k) && Memory.rising (k + 1) m

/-- The canonical form: addresses rise strictly and lie in the 64 Kbyte space, and no entry holds what an unlisted
address reads as. -/
def Memory.wf (m : List Host.Cell) : Bool :=
  Memory.rising 0 m && m.all fun cell => decide (cell.1 < 2 ^ 16) && cell.2 != Config.unwrittenByte

/-- The three memory spaces (R60). -/
inductive Space where
  | program | data | stack
deriving DecidableEq, Repr

/-- `SPACE_MAP` (R60, D2): which cell of storage an address of a space is. The default: one shared memory.
DESIGN CHOICE, unsafe; notes/assumptions/3.md. -/
def spaceMap (_sp : Space) (a : Word) : Nat := a.toNat

/-- The space of an access through an address register: STACK through R15, DATA otherwise (R63). -/
def dspace (r : RegCode) : Space := if r = 0xF#4 then .stack else .data

/-- `MemRead(sp, a, 1)` (R64). -/
def State.readByte (s : State) (sp : Space) (a : Word) : Byte := Memory.read s.mem (spaceMap sp a)

/-- `MemWrite(sp, a, 1, v)` (R65). -/
def State.writeByte (s : State) (sp : Space) (a : Word) (v : Byte) : State :=
  { s with mem := Memory.write s.mem (spaceMap sp a) v }

/-- The word whose bytes are at `a` and `a + 1`, most significant first (R64). -/
def State.wordAt (s : State) (sp : Space) (a : Word) : Word := s.readByte sp a ++ s.readByte sp (a + 1)

/-- Store a word at `a` and `a + 1` (R65). -/
def State.putWord (s : State) (sp : Space) (a : Word) (v : Word) : State :=
  (s.writeByte sp a (v.extractLsb' 8 8)).writeByte sp (a + 1) (v.extractLsb' 0 8)

/-- Word and long addresses are even (R67). -/
def evenAddress (a : Word) : Bool := !a.getLsbD 0

/-- `MemRead(sp, a, 2)`; an odd address is refused (R64, R67, D4). -/
def State.readWord (s : State) (sp : Space) (a : Word) : Attempt Word :=
  if evenAddress a then .ok (s.wordAt sp a) else .error .misalignedAccess

/-- `MemWrite(sp, a, 2, v)` (R65, R67). -/
def State.writeWord (s : State) (sp : Space) (a : Word) (v : Word) : Attempt State :=
  if evenAddress a then .ok (s.putWord sp a v) else .error .misalignedAccess

/-- `MemRead(sp, a, 4)`: the high word at the lower address (R64). -/
def State.readLong (s : State) (sp : Space) (a : Word) : Attempt Long :=
  if evenAddress a then .ok (s.wordAt sp a ++ s.wordAt sp (a + 2)) else .error .misalignedAccess

/-- `MemWrite(sp, a, 4, v)`: the high word first (R65, D20). -/
def State.writeLong (s : State) (sp : Space) (a : Word) (v : Long) : Attempt State :=
  if evenAddress a then
    .ok ((s.putWord sp a (v.extractLsb' 16 16)).putWord sp (a + 2) (v.extractLsb' 0 16))
  else .error .misalignedAccess

/-! The stack of R15 (42_control_transfer.md R322). -/

/-- `push_word(v)`: R15 falls by 2, then the word is stored there. -/
def State.pushWord (s : State) (v : Word) : Attempt State :=
  (s.setReg 0xF#4 (s.reg 0xF#4 - 2)).writeWord .stack (s.reg 0xF#4 - 2) v

/-- `pop_word()`: the word at R15, and the state with R15 raised by 2. -/
def State.popWord (s : State) : Attempt (Word × State) := do
  let v ← s.readWord .stack (s.reg 0xF#4)
  .ok (v, s.setReg 0xF#4 (s.reg 0xF#4 + 2))

/-! Input, output and the pins (20_memory.md R68, 47_system.md R596). -/

/-- Append an output event to the trace (00_scope.md R14). -/
def State.emit (s : State) (e : Event) : State := { s with events := s.events ++ [e] }

/-- `IoRead(space, port, 2)`: what the platform supplies (R68). -/
def State.ioReadWord (s : State) (space : IoSpace) (port : Word) : Word := Config.ioRead s.clock s.events space port 2

/-- `IoRead(space, port, 1)`. -/
def State.ioReadByte (s : State) (space : IoSpace) (port : Word) : Byte :=
  (Config.ioRead s.clock s.events space port 1).extractLsb' 0 8

/-- `IoWrite(space, port, 2, v)` (R68). -/
def State.ioWriteWord (s : State) (space : IoSpace) (port v : Word) : State := s.emit (.ioWrite space port 2 v)

/-- `IoWrite(space, port, 1, v)`. -/
def State.ioWriteByte (s : State) (space : IoSpace) (port : Word) (v : Byte) : State :=
  s.emit (.ioWrite space port 1 (0x00#8 ++ v))

/-- The level of MIB at the `reading`-th time this instruction looks (47_system.md R596). -/
def State.mib (s : State) (reading : Nat) : Bool := Config.mibLevel s.clock s.events reading

/-- Drive MOB; a change is an output event (R596). -/
def State.setMob (s : State) (high : Bool) : State :=
  if s.mo = high then s else { s with mo := high, events := s.events ++ [.mob high] }

/-! Traps, interrupts, reset (60_exceptions.md, 70_reset_and_hazards.md). -/

/-- Load a program status: the FCW under its mask, and the pc (10_state.md R27, R30). -/
def State.loadStatus (s : State) (fcw pc : Word) : State := { s with fcw := fcwMask fcw, pc := pc }

/-- TAKING A TRAP OR AN INTERRUPT (R701): in System mode push the pc, the old FCW and the identifier on the system stack,
then load FCW and pc from the Program Status Area at the given offsets; the halted condition ends. -/
def State.trapEntry (s : State) (identifier savedPc fcwOffset pcOffset : Word) : Attempt State := do
  let s1 := { s with fcw := s.fcw ||| 0x4000#16 }
  let s2 ← s1.pushWord savedPc
  let s3 ← s2.pushWord s.fcw
  let s4 ← s3.pushWord identifier
  let f ← s4.readWord .program (s4.psap + fcwOffset)
  let p ← s4.readWord .program (s4.psap + pcOffset)
  .ok { s4.loadStatus f p with halted := false }

/-- THE RETURN (47_system.md R576): skip the identifier, load FCW and pc from the two words above it, and release all
three. -/
def State.trapReturn (s : State) : Attempt State := do
  let sp := s.reg 0xF#4
  let f ← s.readWord .stack (sp + 2)
  let p ← s.readWord .stack (sp + 4)
  .ok ((s.setReg 0xF#4 (sp + 6)).loadStatus f p)

/-- The SC and Unimplemented Instruction trap (R705). The pc is already past the first word, and no other word of the
instruction is looked at. -/
def State.unimplementedTrap (s : State) (w : Word) : Attempt State := s.trapEntry w s.pc 0x000C#16 0x000E#16

/-- The pc saved by a trap: the address of the word after the first word of the instruction (R707), from the pc after all
its words. -/
def secondWordPc (i : Instr) (pcNext : Word) : Word := pcNext - BitVec.ofNat 16 (byteLength i - 2)

/-- The Privileged Instruction trap of a first word (R706). -/
def State.privilegedTrap (s : State) (w savedPc : Word) : Attempt State := s.trapEntry w savedPc 0x0008#16 0x000A#16

/-- A privileged instruction (R730): in System mode it runs; in Normal mode it takes the Privileged Instruction trap and
has no other effect (R706). -/
def privileged (i : Instr) (s : State) (body : Result) : Result :=
  if s.sys then body else finish (s.privilegedTrap (firstWord i) (secondWordPc i s.pc))

/-- The interrupt acknowledge: the word the environment supplies, and the event (R713). -/
def State.acknowledge (s : State) (k : InterruptKind) : Word × State :=
  (Config.acknowledgeWord s.clock s.events k, s.emit (.acknowledge k))

/-- Accept a non-maskable interrupt (R714). -/
def State.takeNmi (s : State) : Attempt State :=
  let (id, s1) := { s with nmip := false }.acknowledge .nonMaskable
  s1.trapEntry id s1.pc 0x0014#16 0x0016#16

/-- Accept a non-vectored interrupt (R715). -/
def State.takeNvi (s : State) : Attempt State :=
  let (id, s1) := s.acknowledge .nonVectored
  s1.trapEntry id s1.pc 0x0018#16 0x001A#16

/-- Accept a vectored interrupt: the low byte of the identifier selects the new pc (R716). -/
def State.takeVi (s : State) : Attempt State :=
  let (id, s1) := s.acknowledge .vectored
  s1.trapEntry id s1.pc 0x001C#16 (0x001E#16 + 2 * (id &&& 0x00FF#16))

/-- A device reset, whole (70_reset_and_hazards.md R800, D9): general registers, NSP and memory stay; FCW and pc come from
PROGRAM 0x0002 and 0x0004. -/
def State.deviceReset (s : State) : State :=
  let s1 := { s with psap := 0x0000#16, refresh := s.refresh &&& 0x7FFF#16, nmip := false, halted := false }.setMob true
  s1.loadStatus (s1.wordAt .program 0x0002#16) (s1.wordAt .program 0x0004#16)

end Sys2Proof.Machine
end

