-- ==== Sys2Proof/Machine/Operands.lean ====
section
/-!
DEFINITION. Machine/Operands.lean: the addressing modes (30_encoding.md R129 to R139) and the shapes that many meanings
share: read an operand, write an operand, and the four patterns "register op source", "compare", "read-modify-write"
and "test". Addresses and source values are those at the start of the instruction (43_load_store.md R350, D31).
-/

namespace Sys2Proof.Machine

open Sys2Proof

/-! Effective addresses. -/

/-- The space and address of an IR, DA or X operand (R132, R133, R134). -/
def State.memLoc (s : State) (m : Mem) : Space × Word :=
  match m with
  | .ir r => (dspace r, s.reg r)
  | .da a => (.data, a)
  | .x a r => (.data, a + s.reg r)

/-- A BA operand (R136). -/
def State.baLoc (s : State) (r : RegCode) (disp : Word) : Space × Word := (dspace r, s.reg r + disp)

/-- A BX operand (R137). -/
def State.bxLoc (s : State) (r x : RegCode) : Space × Word := (dspace r, s.reg r + s.reg x)

/-- The space and address of a store of LD, LDB or LDL (43_load_store.md R363 to R365). -/
def State.ldDstLoc (s : State) (dst : LdDst) : Space × Word :=
  match dst with
  | .mem m => s.memLoc m
  | .ba r disp => s.baLoc r disp
  | .bx r x => s.bxLoc r x

/-- The effective address of LDA (R380). -/
def State.ldaAddress (s : State) (src : LdaSrc) : Word :=
  match src with
  | .da a => a
  | .x a r => a + s.reg r
  | .ba r disp => s.reg r + disp
  | .bx r x => s.reg r + s.reg x

/-- A relative address: the pc of the next instruction plus the displacement (R135). -/
def State.raAddress (s : State) (disp : Word) : Word := s.pc + disp

/-- The port address of IN and OUT (R132, R133). -/
def State.portAddress (s : State) (p : Port) : Word :=
  match p with
  | .ir r => s.reg r
  | .da v => v

/-! Operand values (R130 to R139), for bytes, words and long words. -/

/-- Read a byte at a location. -/
def State.loadByte (s : State) (l : Space × Word) : Attempt Byte := .ok (s.readByte l.1 l.2)

/-- Write a byte at a location. -/
def State.storeByte (s : State) (l : Space × Word) (v : Byte) : Attempt State := .ok (s.writeByte l.1 l.2 v)

/-- `Reg(sz, c)` for a byte (00_scope.md R11). -/
def State.fetchByte (s : State) (c : RegCode) : Attempt Byte := .ok (s.byteReg c)

/-- Write `Reg(sz, c)` for a byte. -/
def State.assignByte (s : State) (c : RegCode) (v : Byte) : Attempt State := .ok (s.setByteReg c v)

/-- `src_operand` of byte size (R138). -/
def State.srcByte (s : State) (src : Src 8) : Attempt Byte :=
  match src with
  | .reg c => s.fetchByte c
  | .imm v => .ok v
  | .mem m => s.loadByte (s.memLoc m)

/-- The value at `dst_location` of byte size (R139). -/
def State.dstByte (s : State) (dst : Dst) : Attempt Byte :=
  match dst with
  | .reg c => s.fetchByte c
  | .mem m => s.loadByte (s.memLoc m)

/-- Write to `dst_location` of byte size (R139). -/
def State.setDstByte (s : State) (dst : Dst) (v : Byte) : Attempt State :=
  match dst with
  | .reg c => s.assignByte c v
  | .mem m => s.storeByte (s.memLoc m) v

/-- The source of a byte load (43_load_store.md R360 to R362, R366 to R368). -/
def State.ldSrcByte (s : State) (src : LdSrc 8) : Attempt Byte :=
  match src with
  | .reg c => s.fetchByte c
  | .imm v => .ok v
  | .mem m => s.loadByte (s.memLoc m)
  | .ba r disp => s.loadByte (s.baLoc r disp)
  | .bx r x => s.loadByte (s.bxLoc r x)

/-- Read a word at a location. -/
def State.loadWord (s : State) (l : Space × Word) : Attempt Word := s.readWord l.1 l.2

/-- Write a word at a location. -/
def State.storeWord (s : State) (l : Space × Word) (v : Word) : Attempt State := s.writeWord l.1 l.2 v

/-- `Reg(sz, c)` for a word (00_scope.md R11). -/
def State.fetchWord (s : State) (c : RegCode) : Attempt Word := .ok (s.reg c)

/-- Write `Reg(sz, c)` for a word. -/
def State.assignWord (s : State) (c : RegCode) (v : Word) : Attempt State := .ok (s.setReg c v)

/-- `src_operand` of word size (R138). -/
def State.srcWord (s : State) (src : Src 16) : Attempt Word :=
  match src with
  | .reg c => s.fetchWord c
  | .imm v => .ok v
  | .mem m => s.loadWord (s.memLoc m)

/-- The value at `dst_location` of word size (R139). -/
def State.dstWord (s : State) (dst : Dst) : Attempt Word :=
  match dst with
  | .reg c => s.fetchWord c
  | .mem m => s.loadWord (s.memLoc m)

/-- Write to `dst_location` of word size (R139). -/
def State.setDstWord (s : State) (dst : Dst) (v : Word) : Attempt State :=
  match dst with
  | .reg c => s.assignWord c v
  | .mem m => s.storeWord (s.memLoc m) v

/-- The source of a word load (43_load_store.md R360 to R362, R366 to R368). -/
def State.ldSrcWord (s : State) (src : LdSrc 16) : Attempt Word :=
  match src with
  | .reg c => s.fetchWord c
  | .imm v => .ok v
  | .mem m => s.loadWord (s.memLoc m)
  | .ba r disp => s.loadWord (s.baLoc r disp)
  | .bx r x => s.loadWord (s.bxLoc r x)

/-- Read a long at a location. -/
def State.loadLong (s : State) (l : Space × Word) : Attempt Long := s.readLong l.1 l.2

/-- Write a long at a location. -/
def State.storeLong (s : State) (l : Space × Word) (v : Long) : Attempt State := s.writeLong l.1 l.2 v

/-- `Reg(sz, c)` for a long (00_scope.md R11). -/
def State.fetchLong (s : State) (c : RegCode) : Attempt Long := s.pair c

/-- Write `Reg(sz, c)` for a long. -/
def State.assignLong (s : State) (c : RegCode) (v : Long) : Attempt State := s.setPair c v

/-- `src_operand` of long size (R138). -/
def State.srcLong (s : State) (src : Src 32) : Attempt Long :=
  match src with
  | .reg c => s.fetchLong c
  | .imm v => .ok v
  | .mem m => s.loadLong (s.memLoc m)

/-- The value at `dst_location` of long size (R139). -/
def State.dstLong (s : State) (dst : Dst) : Attempt Long :=
  match dst with
  | .reg c => s.fetchLong c
  | .mem m => s.loadLong (s.memLoc m)

/-- Write to `dst_location` of long size (R139). -/
def State.setDstLong (s : State) (dst : Dst) (v : Long) : Attempt State :=
  match dst with
  | .reg c => s.assignLong c v
  | .mem m => s.storeLong (s.memLoc m) v

/-- The source of a long load (43_load_store.md R360 to R362, R366 to R368). -/
def State.ldSrcLong (s : State) (src : LdSrc 32) : Attempt Long :=
  match src with
  | .reg c => s.fetchLong c
  | .imm v => .ok v
  | .mem m => s.loadLong (s.memLoc m)
  | .ba r disp => s.loadLong (s.baLoc r disp)
  | .bx r x => s.loadLong (s.bxLoc r x)

/-! Shapes of meanings. The operation gives the new value and the flags from the old values. -/

/-- `Reg(d) <- op(Reg(d), src)` with flags, byte size. -/
def binaryByte (op : Byte → Byte → Byte × FlagWrite) (d : RegCode) (src : Src 8) (s : State) : Attempt State := do
  let a ← s.fetchByte d
  let b ← s.srcByte src
  let t ← s.assignByte d (op a b).1
  .ok (t.setFlags (op a b).2)

/-- The flags of `op(Reg(d), src)`, nothing written, byte size. -/
def compareByte (op : Byte → Byte → FlagWrite) (d : RegCode) (src : Src 8) (s : State) : Attempt State := do
  let a ← s.fetchByte d
  let b ← s.srcByte src
  .ok (s.setFlags (op a b))

/-- Read an operand, write it back changed, with flags, byte size (R139). -/
def modifyByte (op : Byte → Byte × FlagWrite) (dst : Dst) (s : State) : Attempt State := do
  let a ← s.dstByte dst
  let t ← s.setDstByte dst (op a).1
  .ok (t.setFlags (op a).2)

/-- The flags of an operand, nothing written, byte size. -/
def examineByte (op : Byte → FlagWrite) (dst : Dst) (s : State) : Attempt State := do
  let a ← s.dstByte dst
  .ok (s.setFlags (op a))

/-- `Reg(d) <- op(Reg(d), src)` with flags, word size. -/
def binaryWord (op : Word → Word → Word × FlagWrite) (d : RegCode) (src : Src 16) (s : State) : Attempt State := do
  let a ← s.fetchWord d
  let b ← s.srcWord src
  let t ← s.assignWord d (op a b).1
  .ok (t.setFlags (op a b).2)

/-- The flags of `op(Reg(d), src)`, nothing written, word size. -/
def compareWord (op : Word → Word → FlagWrite) (d : RegCode) (src : Src 16) (s : State) : Attempt State := do
  let a ← s.fetchWord d
  let b ← s.srcWord src
  .ok (s.setFlags (op a b))

/-- Read an operand, write it back changed, with flags, word size (R139). -/
def modifyWord (op : Word → Word × FlagWrite) (dst : Dst) (s : State) : Attempt State := do
  let a ← s.dstWord dst
  let t ← s.setDstWord dst (op a).1
  .ok (t.setFlags (op a).2)

/-- The flags of an operand, nothing written, word size. -/
def examineWord (op : Word → FlagWrite) (dst : Dst) (s : State) : Attempt State := do
  let a ← s.dstWord dst
  .ok (s.setFlags (op a))

/-- `Reg(d) <- op(Reg(d), src)` with flags, long size. -/
def binaryLong (op : Long → Long → Long × FlagWrite) (d : RegCode) (src : Src 32) (s : State) : Attempt State := do
  let a ← s.fetchLong d
  let b ← s.srcLong src
  let t ← s.assignLong d (op a b).1
  .ok (t.setFlags (op a b).2)

/-- The flags of `op(Reg(d), src)`, nothing written, long size. -/
def compareLong (op : Long → Long → FlagWrite) (d : RegCode) (src : Src 32) (s : State) : Attempt State := do
  let a ← s.fetchLong d
  let b ← s.srcLong src
  .ok (s.setFlags (op a b))

/-- The flags of an operand, nothing written, long size. -/
def examineLong (op : Long → FlagWrite) (dst : Dst) (s : State) : Attempt State := do
  let a ← s.dstLong dst
  .ok (s.setFlags (op a))

/-- Two word registers that must be apart (70_reset_and_hazards.md R811, D6). -/
def requireApart (overlap : Bool) : Attempt Unit := if overlap then .error .overlappingRegisters else .ok ()

/-- A pointer register in a second word that must not be R0 (30_encoding.md R111, D15). -/
def requirePointer (r : RegCode) : Attempt Unit := if r = 0 then .error .zeroPointerRegister else .ok ()

/-- A pointer after one element: up or down by the element's bytes (45_block_string.md R460). -/
def stepPointer (up : Bool) (bytes a : Word) : Word := if up then a + bytes else a - bytes

/-- An unfinished repeating instruction: the pc goes back to its own first word; all of them are two words long (R461). -/
def State.rewind (s : State) : State := { s with pc := s.pc - 4 }

end Sys2Proof.Machine
end

