-- ==== Sys2Proof/Machine/Arithmetic.lean ====
section
/-!
DEFINITION. Machine/Arithmetic.lean: the meanings of the arithmetic instructions (40_arithmetic.md). None is privileged and none traps.
-/

namespace Sys2Proof.Machine

open Sys2Proof

/-! Shared: an addition or subtraction as a value and the flags its form writes. -/

/-- Word and long addition. -/
def addOp {n : Nat} (carry : Bool) (a b : BitVec n) : BitVec n × FlagWrite :=
  ((addWith a b carry).value, (addWith a b carry).czsv)

/-- Byte addition: D is cleared and H written. -/
def addByteOp (carry : Bool) (a b : Byte) : Byte × FlagWrite := ((addWith a b carry).value, (addWith a b carry).byteAdd)

/-- Word and long subtraction. -/
def subOp {n : Nat} (borrow : Bool) (a b : BitVec n) : BitVec n × FlagWrite :=
  ((subWith a b borrow).value, (subWith a b borrow).czsv)

/-- Byte subtraction: D is set and H written. -/
def subByteOp (borrow : Bool) (a b : Byte) : Byte × FlagWrite :=
  ((subWith a b borrow).value, (subWith a b borrow).byteSub)

/-- A compare: the flags of the subtraction (R215). -/
def compareOp {n : Nat} (a b : BitVec n) : FlagWrite := (subWith a b false).czsv

/-- An increment by `n + 1` (R233). -/
def incOp {n : Nat} (k : Nibble) (a : BitVec n) : BitVec n × FlagWrite :=
  let r := addWith a (BitVec.ofNat n (k.toNat + 1)) false
  (r.value, r.zsv)

/-- A decrement by `n + 1` (R221). -/
def decOp {n : Nat} (k : Nibble) (a : BitVec n) : BitVec n × FlagWrite :=
  let r := subWith a (BitVec.ofNat n (k.toNat + 1)) false
  (r.value, r.zsv)

/-- A negation, `0 - a` (R238). -/
def negOp {n : Nat} (a : BitVec n) : BitVec n × FlagWrite := subOp false 0#n a

/-! Addition. -/

/-- ADC Rd, Rs (R210). -/
def execAdc (d r : RegCode) (s : State) : Result := finish (binaryWord (addOp s.carry) d (.reg r) s)

/-- ADCB Rbd, Rbs (R211). -/
def execAdcb (d r : RegCode) (s : State) : Result := finish (binaryByte (addByteOp s.carry) d (.reg r) s)

/-- ADD Rd, src (R212). -/
def execAdd (d : RegCode) (src : Src 16) (s : State) : Result := finish (binaryWord (addOp false) d src s)

/-- ADDB Rbd, src (R213). -/
def execAddb (d : RegCode) (src : Src 8) (s : State) : Result := finish (binaryByte (addByteOp false) d src s)

/-- ADDL RRd, src (R214). -/
def execAddl (d : RegCode) (src : Src 32) (s : State) : Result := finish (binaryLong (addOp false) d src s)

/-! Subtraction and compare. -/

/-- SBC Rd, Rs (R240). -/
def execSbc (d r : RegCode) (s : State) : Result := finish (binaryWord (subOp s.carry) d (.reg r) s)

/-- SBCB Rbd, Rbs (R241). -/
def execSbcb (d r : RegCode) (s : State) : Result := finish (binaryByte (subByteOp s.carry) d (.reg r) s)

/-- SUB Rd, src (R242). -/
def execSub (d : RegCode) (src : Src 16) (s : State) : Result := finish (binaryWord (subOp false) d src s)

/-- SUBB Rbd, src (R243). -/
def execSubb (d : RegCode) (src : Src 8) (s : State) : Result := finish (binaryByte (subByteOp false) d src s)

/-- SUBL RRd, src (R244). -/
def execSubl (d : RegCode) (src : Src 32) (s : State) : Result := finish (binaryLong (subOp false) d src s)

/-- CP Rd, src (R215). -/
def execCp (d : RegCode) (src : Src 16) (s : State) : Result := finish (compareWord compareOp d src s)

/-- CPB Rbd, src (R216). -/
def execCpb (d : RegCode) (src : Src 8) (s : State) : Result := finish (compareByte compareOp d src s)

/-- CPL RRd, src (R217). -/
def execCpl (d : RegCode) (src : Src 32) (s : State) : Result := finish (compareLong compareOp d src s)

/-- CP dst, #data, memory destination (R218). -/
def execCpMem (m : Mem) (data : Word) (s : State) : Result := finish (examineWord (compareOp · data) (.mem m) s)

/-- CPB dst, #data, memory destination (R219). -/
def execCpbMem (m : Mem) (data : Byte) (s : State) : Result := finish (examineByte (compareOp · data) (.mem m) s)

/-- NEG dst (R238). C is the borrow: 90_conflicts.md C3, D24. -/
def execNeg (dst : Dst) (s : State) : Result := finish (modifyWord negOp dst s)

/-- NEGB dst (R239). -/
def execNegb (dst : Dst) (s : State) : Result := finish (modifyByte negOp dst s)

/-! Increment and decrement. -/

/-- INC dst, #n (R233). -/
def execInc (dst : Dst) (n : Nibble) (s : State) : Result := finish (modifyWord (incOp n) dst s)

/-- INCB dst, #n (R234). -/
def execIncb (dst : Dst) (n : Nibble) (s : State) : Result := finish (modifyByte (incOp n) dst s)

/-- DEC dst, #n (R221). -/
def execDec (dst : Dst) (n : Nibble) (s : State) : Result := finish (modifyWord (decOp n) dst s)

/-- DECB dst, #n (R222). -/
def execDecb (dst : Dst) (n : Nibble) (s : State) : Result := finish (modifyByte (decOp n) dst s)

/-! Decimal adjust. -/

/-- The new byte and the new C of DAB: by the table, or free where no row matches (R220, D13; notes/assumptions/7.md). -/
def dabResult (s : State) (a : Byte) : Byte × Bool :=
  match dabTable s.decimal s.carry (a.toNat / 16) s.halfCarry (a.toNat % 16) with
  | some (k, c) => (a + k, c)
  | none => (Config.dabByte s.clock s.fcw a, Config.dabCarry s.clock s.fcw a)

/-- DAB Rbd (R220). Z and S are those of the new byte. -/
def execDab (d : RegCode) (s : State) : Result :=
  let r := dabResult s (s.byteReg d)
  .next ((s.setByteReg d r.1).setFlags { c := r.2, z := r.1 == 0, s := r.1.msb })

/-! Sign extension. -/

/-- EXTSB Rd (R231): the field is a word register. -/
def execExtsb (d : RegCode) (s : State) : Result :=
  .next (s.setReg d ((if (s.reg d).getLsbD 7 then 0xFF#8 else 0x00#8) ++ (s.reg d).extractLsb' 0 8))

/-- EXTS RRd (R230). -/
def execExts (d : RegCode) (s : State) : Result :=
  finish do
    let a ← s.pair d
    .ok (s.setReg d (if a.getLsbD 15 then 0xFFFF#16 else 0x0000#16))

/-- EXTSL RQd (R232). -/
def execExtsl (d : RegCode) (s : State) : Result :=
  finish do
    let a ← s.quad d
    .ok (s.setPairValue d (if a.getLsbD 31 then 0xFFFFFFFF#32 else 0x00000000#32))

/-! Multiply and divide. -/

/-- Whether a source register lies in the pair from `d` (R223, R235). -/
def overlapsPair (d : RegCode) (src : Src 16) : Bool :=
  match src with
  | .reg r => r == d || r == d + 1
  | _ => false

/-- Whether a source pair lies in the quadruple from `d` (R224, R236). -/
def overlapsQuad (d : RegCode) (src : Src 32) : Bool :=
  match src with
  | .reg r => r == d || r == d + 2
  | _ => false

/-- MULT RRd, src (R235): the multiplicand is the low register of the pair. -/
def execMult (d : RegCode) (src : Src 16) (s : State) : Result :=
  finish do
    let a ← s.pair d
    requireApart (overlapsPair d src)
    let b ← s.srcWord src
    let p := (a.extractLsb' 0 16).toInt * b.toInt
    let t ← s.setPair d (BitVec.ofInt 32 p)
    .ok (t.setFlags (multFlags 16 p))

/-- MULTL RQd, src (R236). -/
def execMultl (d : RegCode) (src : Src 32) (s : State) : Result :=
  finish do
    let a ← s.quad d
    requireApart (overlapsQuad d src)
    let b ← s.srcLong src
    let p := (a.extractLsb' 0 32).toInt * b.toInt
    let t ← s.setQuad d (BitVec.ofInt 64 p)
    .ok (t.setFlags (multFlags 32 p))

/-- What DIV leaves in its pair: remainder high and quotient low, the old value, or a free value (R226 to R229;
notes/assumptions/6.md). -/
def divResult (clock : Nat) (a : Long) (b : Word) : Division → Long
  | .fits q r => BitVec.ofInt 16 r ++ BitVec.ofInt 16 q
  | .byZero => a
  | .tooLarge => Config.divOverflow clock a b
  | .wide q r => BitVec.ofInt 16 r ++ BitVec.ofInt 16 q

/-- The same for DIVL and its quadruple. -/
def divlResult (clock : Nat) (a : Quad) (b : Long) : Division → Quad
  | .fits q r => BitVec.ofInt 32 r ++ BitVec.ofInt 32 q
  | .byZero => a
  | .tooLarge => Config.divlOverflow clock a b
  | .wide q r => BitVec.ofInt 32 r ++ BitVec.ofInt 32 q

/-- DIV RRd, src (R223). -/
def execDiv (d : RegCode) (src : Src 16) (s : State) : Result :=
  finish do
    let a ← s.pair d
    requireApart (overlapsPair d src)
    let b ← s.srcWord src
    let q := divideInt 16 a.toInt b.toInt
    let t ← s.setPair d (divResult s.clock a b q)
    .ok (t.setFlags q.flags)

/-- DIVL RQd, src (R224). -/
def execDivl (d : RegCode) (src : Src 32) (s : State) : Result :=
  finish do
    let a ← s.quad d
    requireApart (overlapsQuad d src)
    let b ← s.srcLong src
    let q := divideInt 32 a.toInt b.toInt
    let t ← s.setQuad d (divlResult s.clock a b q)
    .ok (t.setFlags q.flags)

end Sys2Proof.Machine
end

