-- ==== Sys2Proof/Machine/Block.lean ====
section
/-!
DEFINITION. Machine/Block.lean: the meanings of the block compare, block load, translate and translate-and-test instructions
(45_block_string.md). A step is ONE iteration; a repeating form that is not done puts the pc back on itself (R461), so
that an interrupt between iterations saves its address. None is privileged and none traps.
-/

namespace Sys2Proof.Machine

open Sys2Proof

/-- Three word registers that must be distinct (R462, D6). -/
def overlaps3 (a b c : RegCode) : Bool := a == b || a == c || b == c

/-- The end of an iteration: count down, write flags that may depend on whether the count is now zero, and go back to
the instruction when it repeats and is not done. -/
def endIteration (repeats : Bool) (r : RegCode) (flags : Bool → FlagWrite) (done : Bool → Bool) (s : State) : State :=
  let zero := s.reg r - 1 == 0
  let t := (s.setReg r (s.reg r - 1)).setFlags (flags zero)
  if repeats && !done zero then t.rewind else t

/-! Block compare (R495). -/

/-- The flags of a compare iteration: C and S of the compare, Z whether the condition matches, V whether the count is
zero. -/
def blockCompareFlags {n : Nat} (a : Alu n) (cc : Cond) (zero : Bool) : FlagWrite :=
  { c := a.c, z := condHolds cc a.c a.z a.s a.v, s := a.s, v := zero }

/-- The completion test of a compare: the condition matches or the count is zero. -/
def blockCompareDone {n : Nat} (a : Alu n) (cc : Cond) (zero : Bool) : Bool := condHolds cc a.c a.z a.s a.v || zero

/-- One compare iteration with a word register destination (R463 to R470). -/
def compareRegisterWord (up repeats : Bool) (d p r : RegCode) (cc : Cond) (s : State) : Attempt State := do
  requirePointer p
  requireApart (overlaps3 d p r)
  let a ← s.fetchWord d
  let b ← s.loadWord (dspace p, s.reg p)
  let x := subWith a b false
  .ok (endIteration repeats r (blockCompareFlags x cc) (blockCompareDone x cc)
    (s.setReg p (stepPointer up 2 (s.reg p))))

/-- One compare iteration of word strings (R471 to R478). -/
def compareStringWord (up repeats : Bool) (d p r : RegCode) (cc : Cond) (s : State) : Attempt State := do
  requirePointer d
  requirePointer p
  requireApart (overlaps3 d p r)
  let a ← s.loadWord (dspace d, s.reg d)
  let b ← s.loadWord (dspace p, s.reg p)
  let x := subWith a b false
  .ok (endIteration repeats r (blockCompareFlags x cc) (blockCompareDone x cc)
    ((s.setReg p (stepPointer up 2 (s.reg p))).setReg d (stepPointer up 2 (s.reg d))))

/-- One compare iteration with a byte register destination (R463 to R470). -/
def compareRegisterByte (up repeats : Bool) (d p r : RegCode) (cc : Cond) (s : State) : Attempt State := do
  requirePointer p
  requireApart (overlaps3 (byteHome d) p r)
  let a ← s.fetchByte d
  let b ← s.loadByte (dspace p, s.reg p)
  let x := subWith a b false
  .ok (endIteration repeats r (blockCompareFlags x cc) (blockCompareDone x cc)
    (s.setReg p (stepPointer up 1 (s.reg p))))

/-- One compare iteration of byte strings (R471 to R478). -/
def compareStringByte (up repeats : Bool) (d p r : RegCode) (cc : Cond) (s : State) : Attempt State := do
  requirePointer d
  requirePointer p
  requireApart (overlaps3 d p r)
  let a ← s.loadByte (dspace d, s.reg d)
  let b ← s.loadByte (dspace p, s.reg p)
  let x := subWith a b false
  .ok (endIteration repeats r (blockCompareFlags x cc) (blockCompareDone x cc)
    ((s.setReg p (stepPointer up 1 (s.reg p))).setReg d (stepPointer up 1 (s.reg d))))

/-- CPD (R463). -/
def execCpd (d p r : RegCode) (cc : Cond) (s : State) : Result := finish (compareRegisterWord false false d p r cc s)

/-- CPDB (R464). -/
def execCpdb (d p r : RegCode) (cc : Cond) (s : State) : Result := finish (compareRegisterByte false false d p r cc s)

/-- CPDR (R465). -/
def execCpdr (d p r : RegCode) (cc : Cond) (s : State) : Result := finish (compareRegisterWord false true d p r cc s)

/-- CPDRB (R466). -/
def execCpdrb (d p r : RegCode) (cc : Cond) (s : State) : Result := finish (compareRegisterByte false true d p r cc s)

/-- CPI (R467). -/
def execCpi (d p r : RegCode) (cc : Cond) (s : State) : Result := finish (compareRegisterWord true false d p r cc s)

/-- CPIB (R468). -/
def execCpib (d p r : RegCode) (cc : Cond) (s : State) : Result := finish (compareRegisterByte true false d p r cc s)

/-- CPIR (R469). -/
def execCpir (d p r : RegCode) (cc : Cond) (s : State) : Result := finish (compareRegisterWord true true d p r cc s)

/-- CPIRB (R470). -/
def execCpirb (d p r : RegCode) (cc : Cond) (s : State) : Result := finish (compareRegisterByte true true d p r cc s)

/-- CPSD (R471). -/
def execCpsd (d p r : RegCode) (cc : Cond) (s : State) : Result := finish (compareStringWord false false d p r cc s)

/-- CPSDB (R472). -/
def execCpsdb (d p r : RegCode) (cc : Cond) (s : State) : Result := finish (compareStringByte false false d p r cc s)

/-- CPSDR (R473). -/
def execCpsdr (d p r : RegCode) (cc : Cond) (s : State) : Result := finish (compareStringWord false true d p r cc s)

/-- CPSDRB (R474). -/
def execCpsdrb (d p r : RegCode) (cc : Cond) (s : State) : Result := finish (compareStringByte false true d p r cc s)

/-- CPSI (R475). -/
def execCpsi (d p r : RegCode) (cc : Cond) (s : State) : Result := finish (compareStringWord true false d p r cc s)

/-- CPSIB (R476). -/
def execCpsib (d p r : RegCode) (cc : Cond) (s : State) : Result := finish (compareStringByte true false d p r cc s)

/-- CPSIR (R477). -/
def execCpsir (d p r : RegCode) (cc : Cond) (s : State) : Result := finish (compareStringWord true true d p r cc s)

/-- CPSIRB (R478). -/
def execCpsirb (d p r : RegCode) (cc : Cond) (s : State) : Result := finish (compareStringByte true true d p r cc s)

/-! Block load (R488). -/

/-- The flags of a load iteration: Z and V both say whether the count is zero. -/
def blockLoadFlags (zero : Bool) : FlagWrite := { z := zero, v := zero }

/-- One word load iteration. -/
def moveElementWord (up repeats : Bool) (d p r : RegCode) (s : State) : Attempt State := do
  requirePointer d
  requirePointer p
  requireApart (overlaps3 d p r)
  let v ← s.loadWord (dspace p, s.reg p)
  let t ← s.storeWord (dspace d, s.reg d) v
  .ok (endIteration repeats r blockLoadFlags id
    ((t.setReg p (stepPointer up 2 (s.reg p))).setReg d (stepPointer up 2 (s.reg d))))

/-- One byte load iteration. -/
def moveElementByte (up repeats : Bool) (d p r : RegCode) (s : State) : Attempt State := do
  requirePointer d
  requirePointer p
  requireApart (overlaps3 d p r)
  let v ← s.loadByte (dspace p, s.reg p)
  let t ← s.storeByte (dspace d, s.reg d) v
  .ok (endIteration repeats r blockLoadFlags id
    ((t.setReg p (stepPointer up 1 (s.reg p))).setReg d (stepPointer up 1 (s.reg d))))

/-- LDD (R480). -/
def execLdd (d p r : RegCode) (s : State) : Result := finish (moveElementWord false false d p r s)

/-- LDDB (R481). -/
def execLddb (d p r : RegCode) (s : State) : Result := finish (moveElementByte false false d p r s)

/-- LDDR (R482). -/
def execLddr (d p r : RegCode) (s : State) : Result := finish (moveElementWord false true d p r s)

/-- LDDRB (R483). -/
def execLddrb (d p r : RegCode) (s : State) : Result := finish (moveElementByte false true d p r s)

/-- LDI (R484). -/
def execLdi (d p r : RegCode) (s : State) : Result := finish (moveElementWord true false d p r s)

/-- LDIB (R485). -/
def execLdib (d p r : RegCode) (s : State) : Result := finish (moveElementByte true false d p r s)

/-- LDIR (R486). -/
def execLdir (d p r : RegCode) (s : State) : Result := finish (moveElementWord true true d p r s)

/-- LDIRB (R487). -/
def execLdirb (d p r : RegCode) (s : State) : Result := finish (moveElementByte true true d p r s)

/-! Translate (R489) and translate and test (R500). -/

/-- The table entry that the byte at a pointer selects: `MemRead(base + index)`. -/
def translated (s : State) (pointer table : RegCode) : Byte :=
  s.readByte (dspace table) (s.reg table + (s.readByte (dspace pointer) (s.reg pointer)).zeroExtend 16)

/-- One translate iteration: the byte at the destination becomes its table entry. -/
def translateElement (up repeats : Bool) (d p r : RegCode) (s : State) : Attempt State := do
  requirePointer d
  requirePointer p
  requireApart (overlaps3 d p r)
  .ok (endIteration repeats r (fun zero => { v := zero }) id
    ((s.writeByte (dspace d) (s.reg d) (translated s d p)).setReg d (stepPointer up 1 (s.reg d))))

/-- Whether a repeating translate and test stops at a table entry: `TRT_STOP_ON_ZERO` is OPEN (D14;
notes/assumptions/9.md). -/
def translateTestStops (t : Byte) : Bool := if Config.trtStopOnZero then t == 0 else t != 0

/-- One translate-and-test iteration: RH1 becomes the table entry; memory is not written. R1 must be apart too. -/
def translateTestElement (up repeats : Bool) (p1 p2 r : RegCode) (s : State) : Attempt State := do
  requirePointer p1
  requirePointer p2
  requireApart (overlaps3 p1 p2 r || p1 == 1 || p2 == 1 || r == 1)
  let t := translated s p1 p2
  .ok (endIteration repeats r (fun zero => { z := t == 0, v := zero }) (fun zero => translateTestStops t || zero)
    ((s.setByteReg 0x1#4 t).setReg p1 (stepPointer up 1 (s.reg p1))))

/-- TRDB (R490). -/
def execTrdb (d p r : RegCode) (s : State) : Result := finish (translateElement false false d p r s)

/-- TRDRB (R491). -/
def execTrdrb (d p r : RegCode) (s : State) : Result := finish (translateElement false true d p r s)

/-- TRIB (R492). -/
def execTrib (d p r : RegCode) (s : State) : Result := finish (translateElement true false d p r s)

/-- TRIRB (R493). -/
def execTrirb (d p r : RegCode) (s : State) : Result := finish (translateElement true true d p r s)

/-- TRTDB (R501). -/
def execTrtdb (p1 p2 r : RegCode) (s : State) : Result := finish (translateTestElement false false p1 p2 r s)

/-- TRTDRB (R502). -/
def execTrtdrb (p1 p2 r : RegCode) (s : State) : Result := finish (translateTestElement false true p1 p2 r s)

/-- TRTIB (R503). -/
def execTrtib (p1 p2 r : RegCode) (s : State) : Result := finish (translateTestElement true false p1 p2 r s)

/-- TRTIRB (R504). -/
def execTrtirb (p1 p2 r : RegCode) (s : State) : Result := finish (translateTestElement true true p1 p2 r s)

end Sys2Proof.Machine
end

