-- ==== Sys2Proof/Machine/Control.lean ====
section
/-!
DEFINITION. Machine/Control.lean: the meanings of the program control instructions (42_control_transfer.md). The pc they start with
is that of the next instruction (R320). The discarded reads of CALL @Rd and JP @Rd are left out (20_memory.md R70).
-/

namespace Sys2Proof.Machine

open Sys2Proof

/-- Go to an address. -/
def State.jump (s : State) (a : Word) : State := { s with pc := a }

/-- Push the return address and go (R321, R323). -/
def callTo (s : State) (target : Word) : Attempt State := do
  let t ← s.pushWord s.pc
  .ok (t.jump target)

/-- CALL dst (R321): the target is taken before the push. -/
def execCall (m : Mem) (s : State) : Result := finish (callTo s (s.memLoc m).2)

/-- CALR dst (R323): twice the signed displacement is subtracted. -/
def execCalr (disp : BitVec 12) (s : State) : Result := finish (callTo s (s.pc - 2 * disp.signExtend 16))

/-- DJNZ R, dst (R324): the test is on the decremented value; the jump is backward. -/
def execDjnz (r : RegCode) (disp : BitVec 7) (s : State) : Result :=
  let t := s.setReg r (s.reg r - 1)
  .next (if s.reg r - 1 = 0 then t else t.jump (s.pc - 2 * disp.zeroExtend 16))

/-- DBJNZ Rb, dst (R325). -/
def execDbjnz (r : RegCode) (disp : BitVec 7) (s : State) : Result :=
  let t := s.setByteReg r (s.byteReg r - 1)
  .next (if s.byteReg r - 1 = 0 then t else t.jump (s.pc - 2 * disp.zeroExtend 16))

/-- JP cc, dst (R326): the target is an address, nothing is read there. -/
def execJp (cc : Cond) (m : Mem) (s : State) : Result := .next (if s.cond cc then s.jump (s.memLoc m).2 else s)

/-- JR cc, dst (R327): twice the signed displacement is added. -/
def execJr (cc : Cond) (disp : BitVec 8) (s : State) : Result := .next (if s.cond cc then s.jump (s.pc + 2 * disp.signExtend 16) else s)

/-- RET cc (R328): a false condition leaves the stack alone. -/
def execRet (cc : Cond) (s : State) : Result :=
  if s.cond cc then
    finish do
      let (v, t) ← s.popWord
      .ok (t.jump v)
  else .next s

end Sys2Proof.Machine
end

