-- ==== Sys2Proof/Machine/InputOutput.lean ====
section
/-!
DEFINITION. Machine/InputOutput.lean: the meanings of the input and output instructions (46_io.md). All are privileged (R521). A read
is a free value (notes/assumptions/5.md), a write an output event.
-/

namespace Sys2Proof.Machine

open Sys2Proof

/-- IN Rd, src (R522). -/
def execInp (d : RegCode) (port : Port) (s : State) : Result :=
  privileged (.inp d port) s (.next (s.setReg d (s.ioReadWord .std (s.portAddress port))))

/-- INB Rbd, src (R523). -/
def execInb (d : RegCode) (port : Port) (s : State) : Result :=
  privileged (.inb d port) s (.next (s.setByteReg d (s.ioReadByte .std (s.portAddress port))))

/-- SIN Rd, port (R524). -/
def execSin (d : RegCode) (port : Word) (s : State) : Result :=
  privileged (.sin d port) s (.next (s.setReg d (s.ioReadWord .special port)))

/-- SINB Rbd, port (R525). -/
def execSinb (d : RegCode) (port : Word) (s : State) : Result :=
  privileged (.sinb d port) s (.next (s.setByteReg d (s.ioReadByte .special port)))

/-- OUT dst, Rs (R526). -/
def execOut (port : Port) (r : RegCode) (s : State) : Result :=
  privileged (.out port r) s (.next (s.ioWriteWord .std (s.portAddress port) (s.reg r)))

/-- OUTB dst, Rbs (R527). -/
def execOutb (port : Port) (r : RegCode) (s : State) : Result :=
  privileged (.outb port r) s (.next (s.ioWriteByte .std (s.portAddress port) (s.byteReg r)))

/-- SOUT port, Rs (R528). -/
def execSout (port : Word) (r : RegCode) (s : State) : Result :=
  privileged (.sout port r) s (.next (s.ioWriteWord .special port (s.reg r)))

/-- SOUTB port, Rbs (R529). -/
def execSoutb (port : Word) (r : RegCode) (s : State) : Result :=
  privileged (.soutb port r) s (.next (s.ioWriteByte .special port (s.byteReg r)))

/-! Block input and output (R530, R550). A step is one iteration (45_block_string.md R461). -/

/-- The flags of a block I/O iteration: V only. -/
def blockIoFlags (zero : Bool) : FlagWrite := { v := zero }

/-- One word input iteration: from the port in Rs to memory at Rd. -/
def inputElementWord (space : IoSpace) (up repeats : Bool) (d p r : RegCode) (s : State) : Attempt State := do
  requirePointer d
  requirePointer p
  requireApart (overlaps3 d p r)
  let t ← s.storeWord (dspace d, s.reg d) (s.ioReadWord space (s.reg p))
  .ok (endIteration repeats r blockIoFlags id (t.setReg d (stepPointer up 2 (s.reg d))))

/-- One word output iteration: from memory at Rs to the port in Rd. -/
def outputElementWord (space : IoSpace) (up repeats : Bool) (d p r : RegCode) (s : State) : Attempt State := do
  requirePointer d
  requirePointer p
  requireApart (overlaps3 d p r)
  let v ← s.loadWord (dspace p, s.reg p)
  .ok (endIteration repeats r blockIoFlags id
    ((s.ioWriteWord space (s.reg d) v).setReg p (stepPointer up 2 (s.reg p))))

/-- One byte input iteration: from the port in Rs to memory at Rd. -/
def inputElementByte (space : IoSpace) (up repeats : Bool) (d p r : RegCode) (s : State) : Attempt State := do
  requirePointer d
  requirePointer p
  requireApart (overlaps3 d p r)
  let t ← s.storeByte (dspace d, s.reg d) (s.ioReadByte space (s.reg p))
  .ok (endIteration repeats r blockIoFlags id (t.setReg d (stepPointer up 1 (s.reg d))))

/-- One byte output iteration: from memory at Rs to the port in Rd. -/
def outputElementByte (space : IoSpace) (up repeats : Bool) (d p r : RegCode) (s : State) : Attempt State := do
  requirePointer d
  requirePointer p
  requireApart (overlaps3 d p r)
  let v ← s.loadByte (dspace p, s.reg p)
  .ok (endIteration repeats r blockIoFlags id
    ((s.ioWriteByte space (s.reg d) v).setReg p (stepPointer up 1 (s.reg p))))

/-- IND (R531). -/
def execInd (d p r : RegCode) (s : State) : Result :=
  privileged (.ind d p r) s (finish (inputElementWord .std false false d p r s))

/-- INDB (R532). -/
def execIndb (d p r : RegCode) (s : State) : Result :=
  privileged (.indb d p r) s (finish (inputElementByte .std false false d p r s))

/-- INDR (R533). -/
def execIndr (d p r : RegCode) (s : State) : Result :=
  privileged (.indr d p r) s (finish (inputElementWord .std false true d p r s))

/-- INDRB (R534). -/
def execIndrb (d p r : RegCode) (s : State) : Result :=
  privileged (.indrb d p r) s (finish (inputElementByte .std false true d p r s))

/-- INI (R535). -/
def execIni (d p r : RegCode) (s : State) : Result :=
  privileged (.ini d p r) s (finish (inputElementWord .std true false d p r s))

/-- INIB (R536). -/
def execInib (d p r : RegCode) (s : State) : Result :=
  privileged (.inib d p r) s (finish (inputElementByte .std true false d p r s))

/-- INIR (R537). -/
def execInir (d p r : RegCode) (s : State) : Result :=
  privileged (.inir d p r) s (finish (inputElementWord .std true true d p r s))

/-- INIRB (R538). -/
def execInirb (d p r : RegCode) (s : State) : Result :=
  privileged (.inirb d p r) s (finish (inputElementByte .std true true d p r s))

/-- SIND (R539). -/
def execSind (d p r : RegCode) (s : State) : Result :=
  privileged (.sind d p r) s (finish (inputElementWord .special false false d p r s))

/-- SINDB (R540). -/
def execSindb (d p r : RegCode) (s : State) : Result :=
  privileged (.sindb d p r) s (finish (inputElementByte .special false false d p r s))

/-- SINDR (R541). -/
def execSindr (d p r : RegCode) (s : State) : Result :=
  privileged (.sindr d p r) s (finish (inputElementWord .special false true d p r s))

/-- SINDRB (R542). -/
def execSindrb (d p r : RegCode) (s : State) : Result :=
  privileged (.sindrb d p r) s (finish (inputElementByte .special false true d p r s))

/-- SINI (R543). -/
def execSini (d p r : RegCode) (s : State) : Result :=
  privileged (.sini d p r) s (finish (inputElementWord .special true false d p r s))

/-- SINIB (R544). -/
def execSinib (d p r : RegCode) (s : State) : Result :=
  privileged (.sinib d p r) s (finish (inputElementByte .special true false d p r s))

/-- SINIR (R545). -/
def execSinir (d p r : RegCode) (s : State) : Result :=
  privileged (.sinir d p r) s (finish (inputElementWord .special true true d p r s))

/-- SINIRB (R546). -/
def execSinirb (d p r : RegCode) (s : State) : Result :=
  privileged (.sinirb d p r) s (finish (inputElementByte .special true true d p r s))

/-- OUTD (R551). -/
def execOutd (d p r : RegCode) (s : State) : Result :=
  privileged (.outd d p r) s (finish (outputElementWord .std false false d p r s))

/-- OUTDB (R552). -/
def execOutdb (d p r : RegCode) (s : State) : Result :=
  privileged (.outdb d p r) s (finish (outputElementByte .std false false d p r s))

/-- OTDR (R553). -/
def execOtdr (d p r : RegCode) (s : State) : Result :=
  privileged (.otdr d p r) s (finish (outputElementWord .std false true d p r s))

/-- OTDRB (R554). -/
def execOtdrb (d p r : RegCode) (s : State) : Result :=
  privileged (.otdrb d p r) s (finish (outputElementByte .std false true d p r s))

/-- OUTI (R555). -/
def execOuti (d p r : RegCode) (s : State) : Result :=
  privileged (.outi d p r) s (finish (outputElementWord .std true false d p r s))

/-- OUTIB (R556). -/
def execOutib (d p r : RegCode) (s : State) : Result :=
  privileged (.outib d p r) s (finish (outputElementByte .std true false d p r s))

/-- OTIR (R557). -/
def execOtir (d p r : RegCode) (s : State) : Result :=
  privileged (.otir d p r) s (finish (outputElementWord .std true true d p r s))

/-- OTIRB (R558). -/
def execOtirb (d p r : RegCode) (s : State) : Result :=
  privileged (.otirb d p r) s (finish (outputElementByte .std true true d p r s))

/-- SOUTD (R559). -/
def execSoutd (d p r : RegCode) (s : State) : Result :=
  privileged (.soutd d p r) s (finish (outputElementWord .special false false d p r s))

/-- SOUTDB (R560). -/
def execSoutdb (d p r : RegCode) (s : State) : Result :=
  privileged (.soutdb d p r) s (finish (outputElementByte .special false false d p r s))

/-- SOTDR (R561). -/
def execSotdr (d p r : RegCode) (s : State) : Result :=
  privileged (.sotdr d p r) s (finish (outputElementWord .special false true d p r s))

/-- SOTDRB (R562). -/
def execSotdrb (d p r : RegCode) (s : State) : Result :=
  privileged (.sotdrb d p r) s (finish (outputElementByte .special false true d p r s))

/-- SOUTI (R563). -/
def execSouti (d p r : RegCode) (s : State) : Result :=
  privileged (.souti d p r) s (finish (outputElementWord .special true false d p r s))

/-- SOUTIB (R564). -/
def execSoutib (d p r : RegCode) (s : State) : Result :=
  privileged (.soutib d p r) s (finish (outputElementByte .special true false d p r s))

/-- SOTIR (R565). -/
def execSotir (d p r : RegCode) (s : State) : Result :=
  privileged (.sotir d p r) s (finish (outputElementWord .special true true d p r s))

/-- SOTIRB (R566). -/
def execSotirb (d p r : RegCode) (s : State) : Result :=
  privileged (.sotirb d p r) s (finish (outputElementByte .special true true d p r s))

end Sys2Proof.Machine
end

