-- ==== Sys2Proof/Machine/LoadStore.lean ====
section
/-!
DEFINITION. Machine/LoadStore.lean: the meanings of the load, store, exchange and stack instructions (43_load_store.md). None is
privileged, none writes a flag, none traps.
-/

namespace Sys2Proof.Machine

open Sys2Proof

/-- CLR dst (R351): one write and no read. -/
def execClr (dst : Dst) (s : State) : Result := finish (s.setDstWord dst 0x0000#16)

/-- CLRB dst (R352): one write and no read. -/
def execClrb (dst : Dst) (s : State) : Result := finish (s.setDstByte dst 0x00#8)

/-- EX dst, src (R353): the old register goes to the source location, the old source to the register. -/
def execEx (d : RegCode) (src : Dst) (s : State) : Result :=
  finish do
    let b ← s.dstWord src
    let a ← s.fetchWord d
    let t ← s.setDstWord src a
    t.assignWord d b

/-- EXB dst, src (R354): the old register goes to the source location, the old source to the register. -/
def execExb (d : RegCode) (src : Dst) (s : State) : Result :=
  finish do
    let b ← s.dstByte src
    let a ← s.fetchByte d
    let t ← s.setDstByte src a
    t.assignByte d b

/-! LD. -/

/-- LD into a register (R360, R366). -/
def execLd (d : RegCode) (src : LdSrc 16) (s : State) : Result :=
  finish do
    let v ← s.ldSrcWord src
    s.assignWord d v

/-- LDB into a register (R361, R367). -/
def execLdb (d : RegCode) (src : LdSrc 8) (s : State) : Result :=
  finish do
    let v ← s.ldSrcByte src
    s.assignByte d v

/-- LDL into a register (R362, R368). -/
def execLdl (d : RegCode) (src : LdSrc 32) (s : State) : Result :=
  finish do
    let v ← s.ldSrcLong src
    s.assignLong d v

/-- LDB Rbd, #data, the compact form (R367). -/
def execLdbShort (d : RegCode) (data : Byte) (s : State) : Result := .next (s.setByteReg d data)

/-- LD dst, R into memory (R363). -/
def execLdStore (dst : LdDst) (r : RegCode) (s : State) : Result :=
  finish do
    let v ← s.fetchWord r
    s.storeWord (s.ldDstLoc dst) v

/-- LDB dst, R into memory (R364). -/
def execLdbStore (dst : LdDst) (r : RegCode) (s : State) : Result :=
  finish do
    let v ← s.fetchByte r
    s.storeByte (s.ldDstLoc dst) v

/-- LDL dst, R into memory (R365). -/
def execLdlStore (dst : LdDst) (r : RegCode) (s : State) : Result :=
  finish do
    let v ← s.fetchLong r
    s.storeLong (s.ldDstLoc dst) v

/-- LD dst, #data, memory destination (R369). -/
def execLdImm (m : Mem) (data : Word) (s : State) : Result := finish (s.storeWord (s.memLoc m) data)

/-- LDB dst, #data, memory destination (R370). -/
def execLdbImm (m : Mem) (data : Byte) (s : State) : Result := finish (s.storeByte (s.memLoc m) data)

/-- LDA Rd, src (R380). The discarded read is left out, and with it any alignment (R70, D4). -/
def execLda (d : RegCode) (src : LdaSrc) (s : State) : Result := .next (s.setReg d (s.ldaAddress src))

/-- LDAR Rd, src (R391). -/
def execLdar (d : RegCode) (disp : Word) (s : State) : Result := .next (s.setReg d (s.raAddress disp))

/-- LDK Rd, #data (R392). -/
def execLdk (d : RegCode) (data : Nibble) (s : State) : Result := .next (s.setReg d (data.zeroExtend 16))

/-! LDM: the address is fixed at the start, the registers wrap from R15 to R0 (R393, R394). -/

/-- Load `n` registers from `d` on with the words from `a` on. Memory does not change meanwhile. -/
def loadMultiple (sp : Space) : Nat → RegCode → Word → State → Attempt State
  | 0, _, _, s => .ok s
  | n + 1, d, a, s => do
    let v ← s.readWord sp a
    loadMultiple sp n (d + 1) (a + 2) (s.setReg d v)

/-- Store `n` registers from `r` on at `a` on. Registers do not change meanwhile. -/
def storeMultiple (sp : Space) : Nat → RegCode → Word → State → Attempt State
  | 0, _, _, s => .ok s
  | n + 1, r, a, s => do
    let t ← s.writeWord sp a (s.reg r)
    storeMultiple sp n (r + 1) (a + 2) t

/-- LDM Rd, src, #n (R393). -/
def execLdm (d : RegCode) (m : Mem) (n : Nibble) (s : State) : Result := finish (loadMultiple (s.memLoc m).1 (n.toNat + 1) d (s.memLoc m).2 s)

/-- LDM dst, Rs, #n (R394). -/
def execLdmStore (m : Mem) (r : RegCode) (n : Nibble) (s : State) : Result := finish (storeMultiple (s.memLoc m).1 (n.toNat + 1) r (s.memLoc m).2 s)

/-! LDR: the PROGRAM space, relative to the next instruction (R395 to R397). -/

/-- LDR Rd, address (R395). -/
def execLdr (d : RegCode) (disp : Word) (s : State) : Result :=
  finish do
    let v ← s.loadWord (.program, s.raAddress disp)
    s.assignWord d v

/-- LDR address, Rs (R395). -/
def execLdrStore (disp : Word) (r : RegCode) (s : State) : Result :=
  finish do
    let v ← s.fetchWord r
    s.storeWord (.program, s.raAddress disp) v

/-- LDRB Rd, address (R396). -/
def execLdrb (d : RegCode) (disp : Word) (s : State) : Result :=
  finish do
    let v ← s.loadByte (.program, s.raAddress disp)
    s.assignByte d v

/-- LDRB address, Rs (R396). -/
def execLdrbStore (disp : Word) (r : RegCode) (s : State) : Result :=
  finish do
    let v ← s.fetchByte r
    s.storeByte (.program, s.raAddress disp) v

/-- LDRL Rd, address (R397). -/
def execLdrl (d : RegCode) (disp : Word) (s : State) : Result :=
  finish do
    let v ← s.loadLong (.program, s.raAddress disp)
    s.assignLong d v

/-- LDRL address, Rs (R397). -/
def execLdrlStore (disp : Word) (r : RegCode) (s : State) : Result :=
  finish do
    let v ← s.fetchLong r
    s.storeLong (.program, s.raAddress disp) v

/-! The stack instructions: any of R1 to R15 may be the stack register (R400 to R404). -/

/-- Whether the destination of POP is its own stack register (R400). -/
def popOverlaps (dst : Dst) (sp : RegCode) : Bool :=
  match dst with
  | .reg d => d == sp
  | .mem _ => false

/-- Whether the stack register of POPL lies in its destination pair (R401). -/
def poplOverlaps (dst : Dst) (sp : RegCode) : Bool :=
  match dst with
  | .reg d => sp == d || sp == d + 1
  | .mem _ => false

/-- Store a word below a stack register (R402). -/
def pushThrough (s : State) (sp : RegCode) (v : Word) : Attempt State :=
  (s.setReg sp (s.reg sp - 2)).writeWord (dspace sp) (s.reg sp - 2) v

/-- POP dst, @Rs (R400). -/
def execPop (dst : Dst) (sp : RegCode) (s : State) : Result :=
  finish do
    requireApart (popOverlaps dst sp)
    let v ← s.readWord (dspace sp) (s.reg sp)
    let t ← s.setDstWord dst v
    .ok (t.setReg sp (s.reg sp + 2))

/-- POPL dst, @Rs (R401): both reads come before the first write. -/
def execPopl (dst : Dst) (sp : RegCode) (s : State) : Result :=
  finish do
    requireApart (poplOverlaps dst sp)
    let v ← s.readLong (dspace sp) (s.reg sp)
    let t ← s.setDstLong dst v
    .ok (t.setReg sp (s.reg sp + 4))

/-- PUSH @Rd, src (R402): the source is read before the pointer falls. -/
def execPush (sp : RegCode) (src : Dst) (s : State) : Result :=
  finish do
    let v ← s.dstWord src
    pushThrough s sp v

/-- PUSHL @Rd, src (R403). -/
def execPushl (sp : RegCode) (src : Dst) (s : State) : Result :=
  finish do
    let v ← s.dstLong src
    (s.setReg sp (s.reg sp - 4)).writeLong (dspace sp) (s.reg sp - 4) v

/-- PUSH @Rd, #data (R404). -/
def execPushImm (sp : RegCode) (data : Word) (s : State) : Result := finish (pushThrough s sp data)

end Sys2Proof.Machine
end

