-- ==== Sys2Proof/Machine/Logical.lean ====
section
/-!
DEFINITION. Machine/Logical.lean: the meanings of the logical, bit, flag and test instructions (41_logical_bit.md). None is
privileged and none traps.
-/

namespace Sys2Proof.Machine

open Sys2Proof

/-- A word operation with the flags of a word result. -/
def logicOp (op : Word → Word → Word) (a b : Word) : Word × FlagWrite := (op a b, logicFlags (op a b))

/-- A byte operation with the flags of a byte result: V is even parity. -/
def logicByteOp (op : Byte → Byte → Byte) (a b : Byte) : Byte × FlagWrite := (op a b, logicFlagsByte (op a b))

/-- AND Rd, src (R262). -/
def execAnd (d : RegCode) (src : Src 16) (s : State) : Result := finish (binaryWord (logicOp (· &&& ·)) d src s)

/-- ANDB Rbd, src (R263). -/
def execAndb (d : RegCode) (src : Src 8) (s : State) : Result := finish (binaryByte (logicByteOp (· &&& ·)) d src s)

/-- OR Rd, src (R282). -/
def execOr (d : RegCode) (src : Src 16) (s : State) : Result := finish (binaryWord (logicOp (· ||| ·)) d src s)

/-- ORB Rbd, src (R283). -/
def execOrb (d : RegCode) (src : Src 8) (s : State) : Result := finish (binaryByte (logicByteOp (· ||| ·)) d src s)

/-- XOR Rd, src (R302). -/
def execXor (d : RegCode) (src : Src 16) (s : State) : Result := finish (binaryWord (logicOp (· ^^^ ·)) d src s)

/-- XORB Rbd, src (R303). -/
def execXorb (d : RegCode) (src : Src 8) (s : State) : Result := finish (binaryByte (logicByteOp (· ^^^ ·)) d src s)

/-- COM dst (R272): the ones complement, 90_conflicts.md C12. -/
def execCom (dst : Dst) (s : State) : Result := finish (modifyWord (fun a => (~~~a, logicFlags (~~~a))) dst s)

/-- COMB dst (R273). -/
def execComb (dst : Dst) (s : State) : Result := finish (modifyByte (fun a => (~~~a, logicFlagsByte (~~~a))) dst s)

/-! Bits. A bit number comes from the instruction or, in the dynamic forms, from the low bits of a word register. -/

/-- The bit number of a dynamic word form: bits 3:0 of the source register (R266). -/
def dynamicBit (s : State) (r : RegCode) : Nat := ((s.reg r).extractLsb' 0 4).toNat

/-- The bit number of a dynamic byte form: bits 2:0 of the source register (R267). -/
def dynamicBitByte (s : State) (r : RegCode) : Nat := ((s.reg r).extractLsb' 0 3).toNat

/-- Z from a bit: set if it is zero (R264). -/
def bitTest {n : Nat} (b : Nat) (a : BitVec n) : FlagWrite := { z := !a.getLsbD b }

/-- A value with one bit cleared; no flag (R284). -/
def bitReset {n : Nat} (b : Nat) (a : BitVec n) : BitVec n × FlagWrite := (a &&& ~~~(1#n <<< b), {})

/-- A value with one bit set; no flag (R289). -/
def bitSet {n : Nat} (b : Nat) (a : BitVec n) : BitVec n × FlagWrite := (a ||| (1#n <<< b), {})

/-- BIT dst, #b, static (R264). -/
def execBit (dst : Dst) (b : Nibble) (s : State) : Result := finish (examineWord (bitTest b.toNat) dst s)

/-- BITB dst, #b, static (R265). -/
def execBitb (dst : Dst) (b : BitVec 3) (s : State) : Result := finish (examineByte (bitTest b.toNat) dst s)

/-- BIT Rd, Rs, dynamic (R266, R271). -/
def execBitDyn (d r : RegCode) (s : State) : Result := finish (examineWord (bitTest (dynamicBit s r)) (.reg d) s)

/-- BITB Rbd, Rs, dynamic (R267, R271): any word register may be the source. -/
def execBitbDyn (d r : RegCode) (s : State) : Result := finish (examineByte (bitTest (dynamicBitByte s r)) (.reg d) s)

/-- RES dst, #b, static (R284). -/
def execRes (dst : Dst) (b : Nibble) (s : State) : Result := finish (modifyWord (bitReset b.toNat) dst s)

/-- RESB dst, #b, static (R285). -/
def execResb (dst : Dst) (b : BitVec 3) (s : State) : Result := finish (modifyByte (bitReset b.toNat) dst s)

/-- RES Rd, Rs, dynamic (R286, R271). -/
def execResDyn (d r : RegCode) (s : State) : Result := finish (modifyWord (bitReset (dynamicBit s r)) (.reg d) s)

/-- RESB Rbd, Rs, dynamic (R287, R271): any word register may be the source. -/
def execResbDyn (d r : RegCode) (s : State) : Result := finish (modifyByte (bitReset (dynamicBitByte s r)) (.reg d) s)

/-- SET dst, #b, static (R289). -/
def execSet (dst : Dst) (b : Nibble) (s : State) : Result := finish (modifyWord (bitSet b.toNat) dst s)

/-- SETB dst, #b, static (R290). -/
def execSetb (dst : Dst) (b : BitVec 3) (s : State) : Result := finish (modifyByte (bitSet b.toNat) dst s)

/-- SET Rd, Rs, dynamic (R291, R271). -/
def execSetDyn (d r : RegCode) (s : State) : Result := finish (modifyWord (bitSet (dynamicBit s r)) (.reg d) s)

/-- SETB Rbd, Rs, dynamic (R292, R271): any word register may be the source. -/
def execSetbDyn (d r : RegCode) (s : State) : Result := finish (modifyByte (bitSet (dynamicBitByte s r)) (.reg d) s)

/-! Flag instructions: the field CZSV stands at the places of the flags in the FCW, bits 7:4 (30_encoding.md R115). -/

/-- The field CZSV as a mask over the FCW. -/
def flagMask (czsv : Nibble) : Word := 0x00#8 ++ czsv ++ 0x0#4

/-- COMFLG flags (R281): H is always complemented too. -/
def execComflg (czsv : Nibble) (s : State) : Result := .next { s with fcw := s.fcw ^^^ flagMask czsv ^^^ 0x0004#16 }

/-- RESFLG flags (R288). -/
def execResflg (czsv : Nibble) (s : State) : Result := .next { s with fcw := s.fcw &&& ~~~flagMask czsv }

/-- SETFLG flags (R293). -/
def execSetflg (czsv : Nibble) (s : State) : Result := .next { s with fcw := s.fcw ||| flagMask czsv }

/-! Test. -/

/-- TCC cc, Rd (R294): a false condition changes nothing. -/
def execTcc (cc : Cond) (d : RegCode) (s : State) : Result := .next (if s.cond cc then s.setReg d (s.reg d ||| 0x0001#16) else s)

/-- TCCB cc, Rbd (R295). -/
def execTccb (cc : Cond) (d : RegCode) (s : State) : Result := .next (if s.cond cc then s.setByteReg d (s.byteReg d ||| 0x01#8) else s)

/-- TEST dst (R296). -/
def execTest (dst : Dst) (s : State) : Result := finish (examineWord logicFlags dst s)

/-- TESTB dst (R297). -/
def execTestb (dst : Dst) (s : State) : Result := finish (examineByte logicFlagsByte dst s)

/-- TESTL dst (R298). -/
def execTestl (dst : Dst) (s : State) : Result := finish (examineLong logicFlags dst s)

/-- TSET dst (R300): S is the old sign bit, the operand becomes all ones. -/
def execTset (dst : Dst) (s : State) : Result := finish (modifyWord (fun a => (0xFFFF#16, { s := a.msb })) dst s)

/-- TSETB dst (R301). -/
def execTsetb (dst : Dst) (s : State) : Result := finish (modifyByte (fun a => (0xFF#8, { s := a.msb })) dst s)

end Sys2Proof.Machine
end

