-- ==== Sys2Proof/Machine/RotateShift.lean ====
section
/-!
DEFINITION. Machine/RotateShift.lean: the meanings of the rotate and shift instructions (44_rotate_shift.md). All operate on a
register; none is privileged and none traps.
-/

namespace Sys2Proof.Machine

open Sys2Proof

/-- A rotate of a byte register (R421). -/
def rotateByte (k : ShiftKind) (d : RegCode) (two : Bool) (s : State) : Attempt State := do
  let x ← s.fetchByte d
  let r := rotateBy k two x s.carry
  let t ← s.assignByte d r.x
  .ok (t.setFlags r.flags)

/-- A rotate of a word register (R421). -/
def rotateWord (k : ShiftKind) (d : RegCode) (two : Bool) (s : State) : Attempt State := do
  let x ← s.fetchWord d
  let r := rotateBy k two x s.carry
  let t ← s.assignWord d r.x
  .ok (t.setFlags r.flags)

/-- A shift of a byte register by a signed count (R435, R436). -/
def shiftByte (arithmetic : Bool) (d : RegCode) (count : Int) (carry : ZeroCountCarry) (s : State) : Attempt State := do
  let x ← s.fetchByte d
  let r := shiftResult arithmetic x count carry
  let t ← s.assignByte d r.1
  .ok (t.setFlags r.2)

/-- A shift of a word register by a signed count (R435, R436). -/
def shiftWord (arithmetic : Bool) (d : RegCode) (count : Int) (carry : ZeroCountCarry) (s : State) : Attempt State := do
  let x ← s.fetchWord d
  let r := shiftResult arithmetic x count carry
  let t ← s.assignWord d r.1
  .ok (t.setFlags r.2)

/-- A shift of a long: a register pair by a signed count (R435, R436). -/
def shiftLong (arithmetic : Bool) (d : RegCode) (count : Int) (carry : ZeroCountCarry) (s : State) : Attempt State := do
  let x ← s.fetchLong d
  let r := shiftResult arithmetic x count carry
  let t ← s.assignLong d r.1
  .ok (t.setFlags r.2)

/-- RL Rd, #1 or #2 (R422). -/
def execRl (d : RegCode) (two : Bool) (s : State) : Result := finish (rotateWord .rl d two s)

/-- RLB Rbd, #1 or #2 (R423). -/
def execRlb (d : RegCode) (two : Bool) (s : State) : Result := finish (rotateByte .rl d two s)

/-- RLC Rd, #1 or #2 (R424). -/
def execRlc (d : RegCode) (two : Bool) (s : State) : Result := finish (rotateWord .rlc d two s)

/-- RLCB Rbd, #1 or #2 (R425). -/
def execRlcb (d : RegCode) (two : Bool) (s : State) : Result := finish (rotateByte .rlc d two s)

/-- RR Rd, #1 or #2 (R427). -/
def execRr (d : RegCode) (two : Bool) (s : State) : Result := finish (rotateWord .rr d two s)

/-- RRB Rbd, #1 or #2 (R428). -/
def execRrb (d : RegCode) (two : Bool) (s : State) : Result := finish (rotateByte .rr d two s)

/-- RRC Rd, #1 or #2 (R429). -/
def execRrc (d : RegCode) (two : Bool) (s : State) : Result := finish (rotateWord .rrc d two s)

/-- RRCB Rbd, #1 or #2 (R430). -/
def execRrcb (d : RegCode) (two : Bool) (s : State) : Result := finish (rotateByte .rrc d two s)

/-- RLDB Rbd, Rbs (R426): the three digits below the high digit of the destination rotate left. -/
def execRldb (d r : RegCode) (s : State) : Result :=
  finish do
    requireApart (d == r)
    let a := s.byteReg d
    let b := s.byteReg r
    let x : Byte := a.extractLsb' 4 4 ++ b.extractLsb' 4 4
    .ok (((s.setByteReg d x).setByteReg r (b.extractLsb' 0 4 ++ a.extractLsb' 0 4)).setFlags { z := x == 0 })

/-- RRDB Rbd, Rbs (R431). -/
def execRrdb (d r : RegCode) (s : State) : Result :=
  finish do
    requireApart (d == r)
    let a := s.byteReg d
    let b := s.byteReg r
    let x : Byte := a.extractLsb' 4 4 ++ b.extractLsb' 0 4
    .ok (((s.setByteReg d x).setByteReg r (a.extractLsb' 0 4 ++ b.extractLsb' 4 4)).setFlags { z := x == 0 })

/-- SDA, the count in a word register (R437). -/
def execSda (d r : RegCode) (s : State) : Result := finish (shiftWord true d (s.reg r).toInt .cleared s)

/-- SDAB, the count in a word register (R438). -/
def execSdab (d r : RegCode) (s : State) : Result := finish (shiftByte true d (s.reg r).toInt .cleared s)

/-- SDAL, the count in a word register (R439). -/
def execSdal (d r : RegCode) (s : State) : Result := finish (shiftLong true d (s.reg r).toInt .unaffected s)

/-- SDL, the count in a word register (R440). -/
def execSdl (d r : RegCode) (s : State) : Result := finish (shiftWord false d (s.reg r).toInt .cleared s)

/-- SDLB, the count in a word register (R441). -/
def execSdlb (d r : RegCode) (s : State) : Result := finish (shiftByte false d (s.reg r).toInt .cleared s)

/-- SDLL, the count in a word register (R442). -/
def execSdll (d r : RegCode) (s : State) : Result := finish (shiftLong false d (s.reg r).toInt .unaffected s)

/-- SLA by the signed count in the instruction (R443). -/
def execSla (d : RegCode) (count : Word) (s : State) : Result := finish (shiftWord true d count.toInt .unaffected s)

/-- SLAB by the signed count in the instruction (R444). -/
def execSlab (d : RegCode) (count : Byte) (s : State) : Result := finish (shiftByte true d count.toInt .unaffected s)

/-- SLAL by the signed count in the instruction (R445). -/
def execSlal (d : RegCode) (count : Word) (s : State) : Result := finish (shiftLong true d count.toInt .unaffected s)

/-- SLL by the signed count in the instruction (R446). -/
def execSll (d : RegCode) (count : Word) (s : State) : Result := finish (shiftWord false d count.toInt .unaffected s)

/-- SLLB by the signed count in the instruction (R447). -/
def execSllb (d : RegCode) (count : Byte) (s : State) : Result := finish (shiftByte false d count.toInt .unaffected s)

/-- SLLL by the signed count in the instruction (R448). -/
def execSlll (d : RegCode) (count : Word) (s : State) : Result := finish (shiftLong false d count.toInt .unaffected s)

/-- SRA by the signed count in the instruction (R449). -/
def execSra (d : RegCode) (count : Word) (s : State) : Result := finish (shiftWord true d count.toInt .unaffected s)

/-- SRAB by the signed count in the instruction (R450). -/
def execSrab (d : RegCode) (count : Byte) (s : State) : Result := finish (shiftByte true d count.toInt .unaffected s)

/-- SRAL by the signed count in the instruction (R451). -/
def execSral (d : RegCode) (count : Word) (s : State) : Result := finish (shiftLong true d count.toInt .unaffected s)

/-- SRL by the signed count in the instruction (R452). -/
def execSrl (d : RegCode) (count : Word) (s : State) : Result := finish (shiftWord false d count.toInt .unaffected s)

/-- SRLB by the signed count in the instruction (R453). -/
def execSrlb (d : RegCode) (count : Byte) (s : State) : Result := finish (shiftByte false d count.toInt .unaffected s)

/-- SRLL by the signed count in the instruction (R454). -/
def execSrll (d : RegCode) (count : Word) (s : State) : Result := finish (shiftLong false d count.toInt .unaffected s)

end Sys2Proof.Machine
end

