-- ==== Sys2Proof/Machine/System.lean ====
section
/-!
DEFINITION. Machine/System.lean: the meanings of the CPU control instructions (47_system.md), and of the EPU and trapped opcodes
(48_epu.md R621, 60_exceptions.md R705). In Normal mode the privileged ones take the Privileged Instruction trap (R570).
-/

namespace Sys2Proof.Machine

open Sys2Proof

/-- The field VN as a mask over the FCW: VIE is bit 12, NVIE bit 11 (R571). -/
def enableMask (vn : BitVec 2) : Word := 0b000#3 ++ vn ++ 0b00000000000#11

/-- DI int (R571): a field bit of 0 disables. -/
def execDi (vn : BitVec 2) (s : State) : Result :=
  privileged (.di vn) s (.next { s with fcw := s.fcw &&& ~~~enableMask (~~~vn) })

/-- EI int (R572): a field bit of 0 enables. -/
def execEi (vn : BitVec 2) (s : State) : Result :=
  privileged (.ei vn) s (.next { s with fcw := s.fcw ||| enableMask (~~~vn) })

/-- HALT (R575). -/
def execHalt (s : State) : Result := privileged .halt s (.next { s with halted := true })

/-- IRET (R576). -/
def execIret (s : State) : Result := privileged .iret s (finish s.trapReturn)

/-- The contents of a control register (10_state.md R34). -/
def State.control (s : State) (c : CtlReg) : Word :=
  match c with
  | .fcw => s.fcw
  | .refresh => s.refresh
  | .psap => s.psap
  | .nsp => s.nsp

/-- Write a control register: the FCW under its mask, the PSAP with a zero low byte (R580 to R584). -/
def State.setControl (s : State) (c : CtlReg) (v : Word) : State :=
  match c with
  | .fcw => { s with fcw := fcwMask v }
  | .refresh => { s with refresh := v }
  | .psap => { s with psap := v &&& 0xFF00#16 }
  | .nsp => { s with nsp := v }

/-- LDCTL to a control register (R580, R581, R583, R584). -/
def execLdctlTo (c : CtlReg) (r : RegCode) (s : State) : Result :=
  privileged (.ldctlTo c r) s (.next (s.setControl c (s.reg r)))

/-- LDCTL from a control register (R580, R581, R583, R584). -/
def execLdctlFrom (d : RegCode) (c : CtlReg) (s : State) : Result :=
  privileged (.ldctlFrom d c) s (.next (s.setReg d (s.control c)))

/-- LDCTLB FLAGS, Rbs (R585); not privileged. -/
def execLdctlbTo (r : RegCode) (s : State) : Result :=
  .next { s with fcw := s.fcw.extractLsb' 8 8 ++ (s.byteReg r &&& 0xFC#8) }

/-- LDCTLB Rbd, FLAGS (R585); not privileged. -/
def execLdctlbFrom (d : RegCode) (s : State) : Result :=
  .next (s.setByteReg d (s.fcw.extractLsb' 0 8))

/-- LDPS src (R590): FCW at the address, pc at the address plus 2. -/
def execLdps (m : Mem) (s : State) : Result :=
  privileged (.ldps m) s
    (finish do
      let l := s.memLoc m
      let f ← s.readWord l.1 l.2
      let p ← s.readWord l.1 (l.2 + 2)
      .ok (s.loadStatus f p))

/-! The multi-micro instructions (R596 to R600). -/

/-- MBIT (R597): S is the level of MIB. -/
def execMbit (s : State) : Result := privileged .mbit s (.next (s.setFlags { s := s.mib 0 }))

/-- MREQ in System mode (R598): MIB Low at first, the request is not signalled; else the register counts down to zero
and a second look at MIB tells whether the request is granted. The loop ends with the register 0 whatever it held. -/
def requestMicro (s : State) (d : RegCode) : State :=
  if s.mib 0 = false then (s.setFlags { z := false, s := false }).setMob true
  else
    let t := (s.setMob false).setReg d 0x0000#16
    if t.mib 1 = false then t.setFlags { z := true, s := true }
    else (t.setFlags { z := true, s := false }).setMob true

/-- MREQ Rd (R598). -/
def execMreq (d : RegCode) (s : State) : Result := privileged (.mreq d) s (.next (requestMicro s d))

/-- MRES (R599): MOB goes High. -/
def execMres (s : State) : Result := privileged .mres s (.next (s.setMob true))

/-- MSET (R600): MOB goes Low. -/
def execMset (s : State) : Result := privileged .mset s (.next (s.setMob false))

/-- NOP (R605). -/
def execNop (s : State) : Result := .next s

/-! The trap to software: SC, the EPU instructions of a design without EPUs, and the trapped opcodes. -/

/-- SC #src (R606): never privileged, never masked. The identifier is the instruction word. -/
def execSc (src : Byte) (s : State) : Result := finish (s.unimplementedTrap (firstWord (.sc src)))

/-- LD with an EPU (R623 to R626): traps in Revision 1 (R621). -/
def execLdEpu (w : Word) (s : State) : Result := finish (s.unimplementedTrap w)

/-- LDB between EPU and flags (R627, R628): traps in Revision 1 (R621). -/
def execLdbEpu (w : Word) (s : State) : Result := finish (s.unimplementedTrap w)

/-- EPUI (R629): traps in Revision 1 (R621). -/
def execEpui (w : Word) (s : State) : Result := finish (s.unimplementedTrap w)

/-- A reserved opcode of the trapped list (30_encoding.md R140): the Unimplemented Instruction trap (R705). -/
def execTrappedReserved (w : Word) (s : State) : Result := finish (s.unimplementedTrap w)

/-- An undocumented EPU opcode of the trapped list (R140, R621). -/
def execTrappedEpu (w : Word) (s : State) : Result := finish (s.unimplementedTrap w)

/-- An opcode of the row SC shares with reserved opcodes (R140). -/
def execTrappedReservedSc (w : Word) (s : State) : Result := finish (s.unimplementedTrap w)

end Sys2Proof.Machine
end

