-- ==== Sys2Proof/Machine/Dispatch.lean ====
section
/-!
DEFINITION. Machine/Dispatch.lean: one arm per constructor of `Instr`, each a direct call of its meaning.
-/

namespace Sys2Proof.Machine

open Sys2Proof

def exec (i : Instr) (s : State) : Host.Outcome State Fault Refusal :=
  match i with
  | .adc d r0 => Sys2Proof.Machine.execAdc d r0 s
  | .adcb d r0 => Sys2Proof.Machine.execAdcb d r0 s
  | .add d src => Sys2Proof.Machine.execAdd d src s
  | .addb d src => Sys2Proof.Machine.execAddb d src s
  | .addl d src => Sys2Proof.Machine.execAddl d src s
  | .cp d src => Sys2Proof.Machine.execCp d src s
  | .cpb d src => Sys2Proof.Machine.execCpb d src s
  | .cpl d src => Sys2Proof.Machine.execCpl d src s
  | .cpMem m data => Sys2Proof.Machine.execCpMem m data s
  | .cpbMem m data => Sys2Proof.Machine.execCpbMem m data s
  | .dab d => Sys2Proof.Machine.execDab d s
  | .dec dst n => Sys2Proof.Machine.execDec dst n s
  | .decb dst n => Sys2Proof.Machine.execDecb dst n s
  | .div d src => Sys2Proof.Machine.execDiv d src s
  | .divl d src => Sys2Proof.Machine.execDivl d src s
  | .exts d => Sys2Proof.Machine.execExts d s
  | .extsb d => Sys2Proof.Machine.execExtsb d s
  | .extsl d => Sys2Proof.Machine.execExtsl d s
  | .inc dst n => Sys2Proof.Machine.execInc dst n s
  | .incb dst n => Sys2Proof.Machine.execIncb dst n s
  | .mult d src => Sys2Proof.Machine.execMult d src s
  | .multl d src => Sys2Proof.Machine.execMultl d src s
  | .neg dst => Sys2Proof.Machine.execNeg dst s
  | .negb dst => Sys2Proof.Machine.execNegb dst s
  | .sbc d r0 => Sys2Proof.Machine.execSbc d r0 s
  | .sbcb d r0 => Sys2Proof.Machine.execSbcb d r0 s
  | .sub d src => Sys2Proof.Machine.execSub d src s
  | .subb d src => Sys2Proof.Machine.execSubb d src s
  | .subl d src => Sys2Proof.Machine.execSubl d src s
  | .and d src => Sys2Proof.Machine.execAnd d src s
  | .andb d src => Sys2Proof.Machine.execAndb d src s
  | .or d src => Sys2Proof.Machine.execOr d src s
  | .orb d src => Sys2Proof.Machine.execOrb d src s
  | .xor d src => Sys2Proof.Machine.execXor d src s
  | .xorb d src => Sys2Proof.Machine.execXorb d src s
  | .com dst => Sys2Proof.Machine.execCom dst s
  | .comb dst => Sys2Proof.Machine.execComb dst s
  | .bit dst b => Sys2Proof.Machine.execBit dst b s
  | .bitb dst b => Sys2Proof.Machine.execBitb dst b s
  | .bitDyn d r0 => Sys2Proof.Machine.execBitDyn d r0 s
  | .bitbDyn d r0 => Sys2Proof.Machine.execBitbDyn d r0 s
  | .res dst b => Sys2Proof.Machine.execRes dst b s
  | .resb dst b => Sys2Proof.Machine.execResb dst b s
  | .resDyn d r0 => Sys2Proof.Machine.execResDyn d r0 s
  | .resbDyn d r0 => Sys2Proof.Machine.execResbDyn d r0 s
  | .set dst b => Sys2Proof.Machine.execSet dst b s
  | .setb dst b => Sys2Proof.Machine.execSetb dst b s
  | .setDyn d r0 => Sys2Proof.Machine.execSetDyn d r0 s
  | .setbDyn d r0 => Sys2Proof.Machine.execSetbDyn d r0 s
  | .comflg czsv => Sys2Proof.Machine.execComflg czsv s
  | .resflg czsv => Sys2Proof.Machine.execResflg czsv s
  | .setflg czsv => Sys2Proof.Machine.execSetflg czsv s
  | .tcc cc d => Sys2Proof.Machine.execTcc cc d s
  | .tccb cc d => Sys2Proof.Machine.execTccb cc d s
  | .test dst => Sys2Proof.Machine.execTest dst s
  | .testb dst => Sys2Proof.Machine.execTestb dst s
  | .testl dst => Sys2Proof.Machine.execTestl dst s
  | .tset dst => Sys2Proof.Machine.execTset dst s
  | .tsetb dst => Sys2Proof.Machine.execTsetb dst s
  | .call m => Sys2Proof.Machine.execCall m s
  | .calr disp => Sys2Proof.Machine.execCalr disp s
  | .djnz r disp => Sys2Proof.Machine.execDjnz r disp s
  | .dbjnz r disp => Sys2Proof.Machine.execDbjnz r disp s
  | .jp cc m => Sys2Proof.Machine.execJp cc m s
  | .jr cc disp => Sys2Proof.Machine.execJr cc disp s
  | .ret cc => Sys2Proof.Machine.execRet cc s
  | .clr dst => Sys2Proof.Machine.execClr dst s
  | .clrb dst => Sys2Proof.Machine.execClrb dst s
  | .ex d src => Sys2Proof.Machine.execEx d src s
  | .exb d src => Sys2Proof.Machine.execExb d src s
  | .ld d src => Sys2Proof.Machine.execLd d src s
  | .ldb d src => Sys2Proof.Machine.execLdb d src s
  | .ldl d src => Sys2Proof.Machine.execLdl d src s
  | .ldbShort d data => Sys2Proof.Machine.execLdbShort d data s
  | .ldStore dst r0 => Sys2Proof.Machine.execLdStore dst r0 s
  | .ldbStore dst r0 => Sys2Proof.Machine.execLdbStore dst r0 s
  | .ldlStore dst r0 => Sys2Proof.Machine.execLdlStore dst r0 s
  | .ldImm m data => Sys2Proof.Machine.execLdImm m data s
  | .ldbImm m data => Sys2Proof.Machine.execLdbImm m data s
  | .lda d src => Sys2Proof.Machine.execLda d src s
  | .ldar d disp => Sys2Proof.Machine.execLdar d disp s
  | .ldk d data => Sys2Proof.Machine.execLdk d data s
  | .ldm d m n => Sys2Proof.Machine.execLdm d m n s
  | .ldmStore m r0 n => Sys2Proof.Machine.execLdmStore m r0 n s
  | .ldr d disp => Sys2Proof.Machine.execLdr d disp s
  | .ldrStore disp r0 => Sys2Proof.Machine.execLdrStore disp r0 s
  | .ldrb d disp => Sys2Proof.Machine.execLdrb d disp s
  | .ldrbStore disp r0 => Sys2Proof.Machine.execLdrbStore disp r0 s
  | .ldrl d disp => Sys2Proof.Machine.execLdrl d disp s
  | .ldrlStore disp r0 => Sys2Proof.Machine.execLdrlStore disp r0 s
  | .pop dst r0 => Sys2Proof.Machine.execPop dst r0 s
  | .popl dst r0 => Sys2Proof.Machine.execPopl dst r0 s
  | .push d src => Sys2Proof.Machine.execPush d src s
  | .pushl d src => Sys2Proof.Machine.execPushl d src s
  | .pushImm d data => Sys2Proof.Machine.execPushImm d data s
  | .rl d two => Sys2Proof.Machine.execRl d two s
  | .rlb d two => Sys2Proof.Machine.execRlb d two s
  | .rlc d two => Sys2Proof.Machine.execRlc d two s
  | .rlcb d two => Sys2Proof.Machine.execRlcb d two s
  | .rr d two => Sys2Proof.Machine.execRr d two s
  | .rrb d two => Sys2Proof.Machine.execRrb d two s
  | .rrc d two => Sys2Proof.Machine.execRrc d two s
  | .rrcb d two => Sys2Proof.Machine.execRrcb d two s
  | .rldb d r0 => Sys2Proof.Machine.execRldb d r0 s
  | .rrdb d r0 => Sys2Proof.Machine.execRrdb d r0 s
  | .sda d r0 => Sys2Proof.Machine.execSda d r0 s
  | .sdab d r0 => Sys2Proof.Machine.execSdab d r0 s
  | .sdal d r0 => Sys2Proof.Machine.execSdal d r0 s
  | .sdl d r0 => Sys2Proof.Machine.execSdl d r0 s
  | .sdlb d r0 => Sys2Proof.Machine.execSdlb d r0 s
  | .sdll d r0 => Sys2Proof.Machine.execSdll d r0 s
  | .sla d count => Sys2Proof.Machine.execSla d count s
  | .slab d count => Sys2Proof.Machine.execSlab d count s
  | .slal d count => Sys2Proof.Machine.execSlal d count s
  | .sll d count => Sys2Proof.Machine.execSll d count s
  | .sllb d count => Sys2Proof.Machine.execSllb d count s
  | .slll d count => Sys2Proof.Machine.execSlll d count s
  | .sra d count => Sys2Proof.Machine.execSra d count s
  | .srab d count => Sys2Proof.Machine.execSrab d count s
  | .sral d count => Sys2Proof.Machine.execSral d count s
  | .srl d count => Sys2Proof.Machine.execSrl d count s
  | .srlb d count => Sys2Proof.Machine.execSrlb d count s
  | .srll d count => Sys2Proof.Machine.execSrll d count s
  | .cpd d r0 r cc => Sys2Proof.Machine.execCpd d r0 r cc s
  | .cpdb d r0 r cc => Sys2Proof.Machine.execCpdb d r0 r cc s
  | .cpdr d r0 r cc => Sys2Proof.Machine.execCpdr d r0 r cc s
  | .cpdrb d r0 r cc => Sys2Proof.Machine.execCpdrb d r0 r cc s
  | .cpi d r0 r cc => Sys2Proof.Machine.execCpi d r0 r cc s
  | .cpib d r0 r cc => Sys2Proof.Machine.execCpib d r0 r cc s
  | .cpir d r0 r cc => Sys2Proof.Machine.execCpir d r0 r cc s
  | .cpirb d r0 r cc => Sys2Proof.Machine.execCpirb d r0 r cc s
  | .cpsd d r0 r cc => Sys2Proof.Machine.execCpsd d r0 r cc s
  | .cpsdb d r0 r cc => Sys2Proof.Machine.execCpsdb d r0 r cc s
  | .cpsdr d r0 r cc => Sys2Proof.Machine.execCpsdr d r0 r cc s
  | .cpsdrb d r0 r cc => Sys2Proof.Machine.execCpsdrb d r0 r cc s
  | .cpsi d r0 r cc => Sys2Proof.Machine.execCpsi d r0 r cc s
  | .cpsib d r0 r cc => Sys2Proof.Machine.execCpsib d r0 r cc s
  | .cpsir d r0 r cc => Sys2Proof.Machine.execCpsir d r0 r cc s
  | .cpsirb d r0 r cc => Sys2Proof.Machine.execCpsirb d r0 r cc s
  | .ldd d r0 r => Sys2Proof.Machine.execLdd d r0 r s
  | .lddb d r0 r => Sys2Proof.Machine.execLddb d r0 r s
  | .lddr d r0 r => Sys2Proof.Machine.execLddr d r0 r s
  | .lddrb d r0 r => Sys2Proof.Machine.execLddrb d r0 r s
  | .ldi d r0 r => Sys2Proof.Machine.execLdi d r0 r s
  | .ldib d r0 r => Sys2Proof.Machine.execLdib d r0 r s
  | .ldir d r0 r => Sys2Proof.Machine.execLdir d r0 r s
  | .ldirb d r0 r => Sys2Proof.Machine.execLdirb d r0 r s
  | .trdb d r0 r => Sys2Proof.Machine.execTrdb d r0 r s
  | .trdrb d r0 r => Sys2Proof.Machine.execTrdrb d r0 r s
  | .trib d r0 r => Sys2Proof.Machine.execTrib d r0 r s
  | .trirb d r0 r => Sys2Proof.Machine.execTrirb d r0 r s
  | .trtdb s1 s2 r => Sys2Proof.Machine.execTrtdb s1 s2 r s
  | .trtdrb s1 s2 r => Sys2Proof.Machine.execTrtdrb s1 s2 r s
  | .trtib s1 s2 r => Sys2Proof.Machine.execTrtib s1 s2 r s
  | .trtirb s1 s2 r => Sys2Proof.Machine.execTrtirb s1 s2 r s
  | .inp d port => Sys2Proof.Machine.execInp d port s
  | .inb d port => Sys2Proof.Machine.execInb d port s
  | .sin d port => Sys2Proof.Machine.execSin d port s
  | .sinb d port => Sys2Proof.Machine.execSinb d port s
  | .out port r0 => Sys2Proof.Machine.execOut port r0 s
  | .outb port r0 => Sys2Proof.Machine.execOutb port r0 s
  | .sout port r0 => Sys2Proof.Machine.execSout port r0 s
  | .soutb port r0 => Sys2Proof.Machine.execSoutb port r0 s
  | .ind d r0 r => Sys2Proof.Machine.execInd d r0 r s
  | .indb d r0 r => Sys2Proof.Machine.execIndb d r0 r s
  | .indr d r0 r => Sys2Proof.Machine.execIndr d r0 r s
  | .indrb d r0 r => Sys2Proof.Machine.execIndrb d r0 r s
  | .ini d r0 r => Sys2Proof.Machine.execIni d r0 r s
  | .inib d r0 r => Sys2Proof.Machine.execInib d r0 r s
  | .inir d r0 r => Sys2Proof.Machine.execInir d r0 r s
  | .inirb d r0 r => Sys2Proof.Machine.execInirb d r0 r s
  | .outd d r0 r => Sys2Proof.Machine.execOutd d r0 r s
  | .outdb d r0 r => Sys2Proof.Machine.execOutdb d r0 r s
  | .otdr d r0 r => Sys2Proof.Machine.execOtdr d r0 r s
  | .otdrb d r0 r => Sys2Proof.Machine.execOtdrb d r0 r s
  | .outi d r0 r => Sys2Proof.Machine.execOuti d r0 r s
  | .outib d r0 r => Sys2Proof.Machine.execOutib d r0 r s
  | .otir d r0 r => Sys2Proof.Machine.execOtir d r0 r s
  | .otirb d r0 r => Sys2Proof.Machine.execOtirb d r0 r s
  | .sind d r0 r => Sys2Proof.Machine.execSind d r0 r s
  | .sindb d r0 r => Sys2Proof.Machine.execSindb d r0 r s
  | .sindr d r0 r => Sys2Proof.Machine.execSindr d r0 r s
  | .sindrb d r0 r => Sys2Proof.Machine.execSindrb d r0 r s
  | .sini d r0 r => Sys2Proof.Machine.execSini d r0 r s
  | .sinib d r0 r => Sys2Proof.Machine.execSinib d r0 r s
  | .sinir d r0 r => Sys2Proof.Machine.execSinir d r0 r s
  | .sinirb d r0 r => Sys2Proof.Machine.execSinirb d r0 r s
  | .soutd d r0 r => Sys2Proof.Machine.execSoutd d r0 r s
  | .soutdb d r0 r => Sys2Proof.Machine.execSoutdb d r0 r s
  | .sotdr d r0 r => Sys2Proof.Machine.execSotdr d r0 r s
  | .sotdrb d r0 r => Sys2Proof.Machine.execSotdrb d r0 r s
  | .souti d r0 r => Sys2Proof.Machine.execSouti d r0 r s
  | .soutib d r0 r => Sys2Proof.Machine.execSoutib d r0 r s
  | .sotir d r0 r => Sys2Proof.Machine.execSotir d r0 r s
  | .sotirb d r0 r => Sys2Proof.Machine.execSotirb d r0 r s
  | .di vn => Sys2Proof.Machine.execDi vn s
  | .ei vn => Sys2Proof.Machine.execEi vn s
  | .halt => Sys2Proof.Machine.execHalt s
  | .iret => Sys2Proof.Machine.execIret s
  | .ldctlTo c r0 => Sys2Proof.Machine.execLdctlTo c r0 s
  | .ldctlFrom d c => Sys2Proof.Machine.execLdctlFrom d c s
  | .ldctlbTo r0 => Sys2Proof.Machine.execLdctlbTo r0 s
  | .ldctlbFrom d => Sys2Proof.Machine.execLdctlbFrom d s
  | .ldps m => Sys2Proof.Machine.execLdps m s
  | .mbit => Sys2Proof.Machine.execMbit s
  | .mreq d => Sys2Proof.Machine.execMreq d s
  | .mres => Sys2Proof.Machine.execMres s
  | .mset => Sys2Proof.Machine.execMset s
  | .nop => Sys2Proof.Machine.execNop s
  | .sc src => Sys2Proof.Machine.execSc src s
  | .ldEpu w => Sys2Proof.Machine.execLdEpu w s
  | .ldbEpu w => Sys2Proof.Machine.execLdbEpu w s
  | .epui w => Sys2Proof.Machine.execEpui w s
  | .trappedReserved w => Sys2Proof.Machine.execTrappedReserved w s
  | .trappedEpu w => Sys2Proof.Machine.execTrappedEpu w s
  | .trappedReservedSc w => Sys2Proof.Machine.execTrappedReservedSc w s

end Sys2Proof.Machine
end

