-- ==== Sys2Proof/Machine/Fetch.lean ====
section
/-!
DEFINITION. Machine/Fetch.lean: what stands around an instruction in a step of the CPU (00_scope.md R15): the sampling of
reset and interrupts (60_exceptions.md R712), the fetch of an instruction's words (30_encoding.md R100), and the advance
of the pc past them (10_state.md R26).
-/

namespace Sys2Proof.Machine

open Sys2Proof

/-- The beginning of a step: the clock counts, what the environment asserts now is taken from `inputs`, and a falling
edge on NMIB sets NMIP (10_state.md R35, 60_exceptions.md R714). -/
def State.sampleInputs (s : State) : Sample × State :=
  match s.inputs with
  | [] => (Sample.quiet, { s with clock := s.clock + 1 })
  | now :: later => (now, { s with clock := s.clock + 1, inputs := later, nmip := s.nmip || now.nmiEdge })

/-- The interrupt accepted at this sampling point, if any: NMI, then VI, then NVI, the last two only when enabled (R712,
R717). -/
def State.interrupt (s : State) (now : Sample) : Option (Attempt State) :=
  if s.nmip then some s.takeNmi
  else if now.vi && s.vie then some s.takeVi
  else if now.nvi && s.nvie then some s.takeNvi
  else none

/-- The three words from the pc on: as many as the longest instruction has (R100, R101), in PROGRAM space, addresses
modulo 2^16. -/
def State.instructionWords (s : State) : List Word :=
  [s.wordAt .program s.pc, s.wordAt .program (s.pc + 2), s.wordAt .program (s.pc + 4)]

/-- The pc past the words taken: three were offered and `rest` are left (R26). -/
def State.advance (s : State) (rest : List Word) : State := { s with pc := s.pc + BitVec.ofNat 16 (6 - 2 * rest.length) }

/-- What a step answers when the words at the pc are no instruction: the refusal that the decoder names. But a trap is
decided by the first word alone (60_exceptions.md R706, R722), so in Normal mode block input and output take the
Privileged Instruction trap before their second word is looked at. -/
def State.undecoded (s : State) (why : DecodeError) : Result :=
  if !s.sys && blockIoWord (s.wordAt .program s.pc) then
    finish (s.privilegedTrap (s.wordAt .program s.pc) (s.pc + 2))
  else .refused (.undecodable why)

/-- Store bytes at consecutive addresses of PROGRAM space. -/
def State.putBytes (s : State) (a : Word) : List Byte → State
  | [] => s
  | b :: bs => (s.writeByte .program a b).putBytes (a + 1) bs

end Sys2Proof.Machine
end

