-- ==== Sys2Proof/Machine/Step.lean ====
section
/-!
DEFINITION. Machine/Step.lean: one step of the CPU (00_scope.md R15), and the interface's way to place an instruction where
the next step fetches it.
-/

namespace Sys2Proof.Machine

open Sys2Proof

/-- Fetch, decode and execute the instruction at the pc. An odd pc is refused (10_state.md R26, D4). -/
def runInstruction (s : State) : Host.Outcome State Fault Refusal :=
  if evenAddress s.pc then
    match decode s.instructionWords with
    | .ok (i, rest) => exec i (s.advance rest)
    | .error why => s.undecoded why
  else .refused .oddProgramCounter

/-- One step (R15): a reset; else an accepted interrupt; else, unless the processor is halted, one instruction, or one
iteration of a repeating one. A halted processor with nothing accepted stays as it is. -/
def step (s : State) : Host.Outcome State Fault Refusal :=
  let now := s.sampleInputs.1
  let t := s.sampleInputs.2
  if now.reset then .next t.deviceReset
  else match t.interrupt now with
    | some entry => finish entry
    | none => if t.halted then .next t else runInstruction t

/-- The state with an instruction's bits, numbered as spec/opcode_table.json numbers them, stored at the pc, so that the
next step runs it: the processor is not halted, no interrupt is pending and the pc is even. -/
def State.withFetchWord (s : State) (nbits w : Nat) : State :=
  let v := w % 2 ^ nbits
  let a := s.pc &&& 0xFFFE#16
  let t := s.putBytes a
    (bytesOfWords [BitVec.ofNat 16 v, BitVec.ofNat 16 (v / 2 ^ 16), BitVec.ofNat 16 (v / 2 ^ 32)])
  { t with pc := a, halted := false, nmip := false, inputs := [] }

end Sys2Proof.Machine
end

