-- ==== Sys2Proof/Safety.lean ====
section
/-!
DEFINITION. Safety.lean: what counts as a state the machine can be in and as a run that stays inside the spec, and the words
that the statements use: what an instruction completes with, what it may change, and what entering a trap leaves.
-/

namespace Sys2Proof.Machine

open Sys2Proof

/-- What holds of every state of the machine: memory is in its canonical form, the FCW holds only what it can hold
(10_state.md R30: in Revision 1 SYS is 1 and EPA, SEG and the unused bits are 0), and the low byte of PSAP is zero
(R31). -/
structure State.Inv (s : State) : Prop where
  memory : Memory.wf s.mem = true
  status : fcwMask s.fcw = s.fcw
  area : s.psap &&& 0x00FF#16 = 0x0000#16

/-- The step goes on: the spec gives it a behaviour (00_scope.md R12). -/
def State.continues (s : State) : Prop := ∃ t, step s = .next t

/-- The run goes on for `n` steps: it never meets a `refuse`. -/
def State.safeFor : Nat → State → Prop
  | 0, _ => True
  | n + 1, s => ∃ t, step s = .next t ∧ State.safeFor n t

/-- The instruction completes: `exec` answers a next state, and it is as `post` says. -/
def Completes (i : Instr) (s : State) (post : State → Prop) : Prop := ∃ t, exec i s = .next t ∧ post t

/-- The instruction stops with this refusal. -/
def Refuses (i : Instr) (s : State) (why : Refusal) : Prop := exec i s = .refused why

/-- From `s` to `t` nothing changed but the word registers of `ds`, the bytes of memory at `bs` and the flags that `f`
names, and those flags are as `f` says. Both stack pointers, the pc, every other bit of the FCW, the control registers,
the latches and the model's own fields are as before. -/
structure OnlyChanged (ds : List RegCode) (bs : List Word) (f : FlagWrite) (s t : State) : Prop where
  registers : ∀ q, q ∉ ds → t.reg q = s.reg q
  hiddenStackPointer : if s.sys then t.nsp = s.nsp else t.regs[15] = s.regs[15]
  bytes : ∀ sp a, a ∉ bs → t.readByte sp a = s.readByte sp a
  carry : t.carry = f.c.getD s.carry
  zero : t.zero = f.z.getD s.zero
  sign : t.sign = f.s.getD s.sign
  overflow : t.overflow = f.v.getD s.overflow
  decimal : t.decimal = f.d.getD s.decimal
  halfCarry : t.halfCarry = f.h.getD s.halfCarry
  status : t.fcw &&& 0xFF03#16 = s.fcw &&& 0xFF03#16
  pc : t.pc = s.pc
  psap : t.psap = s.psap
  refresh : t.refresh = s.refresh
  mo : t.mo = s.mo
  nmip : t.nmip = s.nmip
  halted : t.halted = s.halted
  inputs : t.inputs = s.inputs
  events : t.events = s.events
  clock : t.clock = s.clock

/-- A word register holds `v`, and nothing else changed but the flags `f` names. -/
def WordRegister (d : RegCode) (v : Word) (f : FlagWrite) (s t : State) : Prop :=
  t.reg d = v ∧ OnlyChanged [d] [] f s t

/-- A byte register holds `v`, and nothing else changed, the other byte of its word register included, but the flags
`f` names. -/
def ByteRegister (d : RegCode) (v : Byte) (f : FlagWrite) (s t : State) : Prop :=
  t.byteReg d = v ∧ (∀ e, e ≠ d → t.byteReg e = s.byteReg e) ∧ OnlyChanged [byteHome d] [] f s t

/-- A register pair holds `v`, high word first, and nothing else changed but the flags `f` names. -/
def LongRegister (d : RegCode) (v : Long) (f : FlagWrite) (s t : State) : Prop :=
  t.reg d = v.extractLsb' 16 16 ∧ t.reg (d + 1) = v.extractLsb' 0 16 ∧ OnlyChanged [d, d + 1] [] f s t

/-- A register quadruple holds `v`, highest word first, and nothing else changed but the flags `f` names. -/
def QuadRegister (d : RegCode) (v : Quad) (f : FlagWrite) (s t : State) : Prop :=
  t.reg d = v.extractLsb' 48 16 ∧ t.reg (d + 1) = v.extractLsb' 32 16 ∧ t.reg (d + 2) = v.extractLsb' 16 16 ∧
    t.reg (d + 3) = v.extractLsb' 0 16 ∧ OnlyChanged [d, d + 1, d + 2, d + 3] [] f s t

/-- The byte at an address is `v`, and nothing else changed but the flags `f` names. -/
def ByteStored (l : Space × Word) (v : Byte) (f : FlagWrite) (s t : State) : Prop :=
  t.readByte l.1 l.2 = v ∧ OnlyChanged [] [l.2] f s t

/-- The bytes at an address and the next are `v`, high byte first, and nothing else changed but the flags `f` names. -/
def WordStored (l : Space × Word) (v : Word) (f : FlagWrite) (s t : State) : Prop :=
  t.readByte l.1 l.2 = v.extractLsb' 8 8 ∧ t.readByte l.1 (l.2 + 1) = v.extractLsb' 0 8 ∧
    OnlyChanged [] [l.2, l.2 + 1] f s t

/-- The four bytes from an address on are `v`, high byte first, and nothing else changed but the flags `f` names. -/
def LongStored (l : Space × Word) (v : Long) (f : FlagWrite) (s t : State) : Prop :=
  t.readByte l.1 l.2 = v.extractLsb' 24 8 ∧ t.readByte l.1 (l.2 + 1) = v.extractLsb' 16 8 ∧
    t.readByte l.1 (l.2 + 2) = v.extractLsb' 8 8 ∧ t.readByte l.1 (l.2 + 3) = v.extractLsb' 0 8 ∧
    OnlyChanged [] [l.2, l.2 + 1, l.2 + 2, l.2 + 3] f s t

/-- A byte operand, register or memory, holds `v`, and nothing else changed but the flags `f` names. -/
def ByteOperand (dst : Dst) (v : Byte) (f : FlagWrite) (s t : State) : Prop :=
  match dst with
  | .reg d => ByteRegister d v f s t
  | .mem m => ByteStored (s.memLoc m) v f s t

/-- A word operand, register or memory, holds `v`, and nothing else changed but the flags `f` names. -/
def WordOperand (dst : Dst) (v : Word) (f : FlagWrite) (s t : State) : Prop :=
  match dst with
  | .reg d => WordRegister d v f s t
  | .mem m => WordStored (s.memLoc m) v f s t

/-- A word went on the stack of a register: the register fell by 2 and points at the word, high byte first, and nothing
else changed. -/
def Pushed (sp : RegCode) (v : Word) (s t : State) : Prop :=
  t.reg sp = s.reg sp - 2 ∧ t.readByte (dspace sp) (s.reg sp - 2) = v.extractLsb' 8 8 ∧
    t.readByte (dspace sp) (s.reg sp - 1) = v.extractLsb' 0 8 ∧
    OnlyChanged [sp] [s.reg sp - 2, s.reg sp - 1] {} s t

/-- One iteration of a block instruction: the count register fell by one, the other registers of `rs` hold what stands
beside them, the bytes at `bs` may have changed, the flags `f` names are as it says, and nothing else changed, except
that the pc is back on the instruction, four bytes before, when it is to run again (45_block_string.md R461). -/
def Iterated (r : RegCode) (rs : List (RegCode × Word)) (bs : List Word) (f : FlagWrite) (again : Bool) (s t : State) :
    Prop :=
  t.reg r = s.reg r - 1 ∧ (∀ x ∈ rs, t.reg x.1 = x.2) ∧
    OnlyChanged (r :: rs.map (·.1)) bs f { s with pc := if again then s.pc - 4 else s.pc } t

/-- Nothing but the FCW differs. -/
def OnlyStatus (s t : State) : Prop := t = { s with fcw := t.fcw }

/-- The three words of a trap or interrupt frame are on the system stack (60_exceptions.md R702): identifier, old FCW, and
saved pc, with the identifier at the new stack pointer; FCW and pc come from the Program Status Area; System mode holds
while the frame is pushed; the processor is not halted; and no other register, byte or latch changed (R701). -/
structure Entered (identifier savedPc fcwOffset pcOffset : Word) (s t : State) : Prop where
  stackPointer : t.regs[15] = s.regs[15] - 6
  savedPc : t.wordAt .stack (s.regs[15] - 2) = savedPc
  savedStatus : t.wordAt .stack (s.regs[15] - 4) = s.fcw
  identifier : t.wordAt .stack (s.regs[15] - 6) = identifier
  status : t.fcw = fcwMask (t.wordAt .program (s.psap + fcwOffset))
  pc : t.pc = t.wordAt .program (s.psap + pcOffset)
  halted : t.halted = false
  registers : ∀ q : Fin 16, q ≠ 15 → t.regs[q] = s.regs[q]
  bytes : ∀ sp a, a ∉ [s.regs[15] - 1, s.regs[15] - 2, s.regs[15] - 3, s.regs[15] - 4, s.regs[15] - 5, s.regs[15] - 6] →
    t.readByte sp a = s.readByte sp a
  nsp : t.nsp = s.nsp
  psap : t.psap = s.psap
  refresh : t.refresh = s.refresh
  mo : t.mo = s.mo
  nmip : t.nmip = s.nmip
  inputs : t.inputs = s.inputs
  events : t.events = s.events
  clock : t.clock = s.clock

/-- An entry can be made: the system stack pointer is even, and so is the Program Status Area (20_memory.md R67). -/
def State.canEnter (s : State) : Prop := evenAddress s.regs[15] = true ∧ evenAddress s.psap = true

end Sys2Proof.Machine

namespace Sys2Proof

/-- The privileged instructions (60_exceptions.md R730, 92_eei_decisions.md D28): input and output, and the control
instructions but LDCTLB, SC and NOP. -/
def Instr.isPrivileged : Instr → Bool
  | .inp _ _ => true
  | .inb _ _ => true
  | .sin _ _ => true
  | .sinb _ _ => true
  | .out _ _ => true
  | .outb _ _ => true
  | .sout _ _ => true
  | .soutb _ _ => true
  | .ind _ _ _ => true
  | .indb _ _ _ => true
  | .indr _ _ _ => true
  | .indrb _ _ _ => true
  | .ini _ _ _ => true
  | .inib _ _ _ => true
  | .inir _ _ _ => true
  | .inirb _ _ _ => true
  | .outd _ _ _ => true
  | .outdb _ _ _ => true
  | .otdr _ _ _ => true
  | .otdrb _ _ _ => true
  | .outi _ _ _ => true
  | .outib _ _ _ => true
  | .otir _ _ _ => true
  | .otirb _ _ _ => true
  | .sind _ _ _ => true
  | .sindb _ _ _ => true
  | .sindr _ _ _ => true
  | .sindrb _ _ _ => true
  | .sini _ _ _ => true
  | .sinib _ _ _ => true
  | .sinir _ _ _ => true
  | .sinirb _ _ _ => true
  | .soutd _ _ _ => true
  | .soutdb _ _ _ => true
  | .sotdr _ _ _ => true
  | .sotdrb _ _ _ => true
  | .souti _ _ _ => true
  | .soutib _ _ _ => true
  | .sotir _ _ _ => true
  | .sotirb _ _ _ => true
  | .di _ => true
  | .ei _ => true
  | .halt => true
  | .iret => true
  | .ldctlTo _ _ => true
  | .ldctlFrom _ _ => true
  | .ldps _ => true
  | .mbit => true
  | .mreq _ => true
  | .mres => true
  | .mset => true
  | _ => false

end Sys2Proof
end

