-- ==== Sys2Proof/WellFormed.lean ====
section
/-!
DEFINITION. WellFormed.lean: which terms of `Instr` an encoding exists for. An ill-formed term is one no word of the
machine stands for: R0 as an address register in a first word (30_encoding.md R111), a static shift whose count has the
other direction's sign (44_rotate_shift.md R435), or a trapped word that is not the one the decoder files there (R140).
Illegal pair and quadruple codes, overlapping registers and R0 in a second word are WELL FORMED: "the instruction is
still the same instruction" (R111), and its meaning refuses it.
-/

namespace Sys2Proof

/-- An address register of a memory operand is not R0 (R111). -/
def Mem.wellFormed : Mem → Bool
  | .ir r => r != 0
  | .da _ => true
  | .x _ r => r != 0

/-- R111 for a source operand. -/
def Src.wellFormed {n : Nat} : Src n → Bool
  | .mem m => m.wellFormed
  | _ => true

/-- R111 for a register or memory operand. -/
def Dst.wellFormed : Dst → Bool
  | .reg _ => true
  | .mem m => m.wellFormed

/-- R111 for a load source: the base register is not R0, the index register may be (R137). -/
def LdSrc.wellFormed {n : Nat} : LdSrc n → Bool
  | .mem m => m.wellFormed
  | .ba r _ => r != 0
  | .bx r _ => r != 0
  | _ => true

/-- R111 for a store destination. -/
def LdDst.wellFormed : LdDst → Bool
  | .mem m => m.wellFormed
  | .ba r _ => r != 0
  | .bx r _ => r != 0

/-- R111 for LDA. -/
def LdaSrc.wellFormed : LdaSrc → Bool
  | .da _ => true
  | .x _ r => r != 0
  | .ba r _ => r != 0
  | .bx r _ => r != 0

/-- R111 for a port. -/
def Port.wellFormed : Port → Bool
  | .ir r => r != 0
  | .da _ => true

/-- An encoding exists for the instruction. -/
def Instr.wellFormed : Instr → Bool
  | .adc _ _ => true
  | .adcb _ _ => true
  | .add _ src => src.wellFormed
  | .addb _ src => src.wellFormed
  | .addl _ src => src.wellFormed
  | .cp _ src => src.wellFormed
  | .cpb _ src => src.wellFormed
  | .cpl _ src => src.wellFormed
  | .cpMem m _ => m.wellFormed
  | .cpbMem m _ => m.wellFormed
  | .dab _ => true
  | .dec dst _ => dst.wellFormed
  | .decb dst _ => dst.wellFormed
  | .div _ src => src.wellFormed
  | .divl _ src => src.wellFormed
  | .exts _ => true
  | .extsb _ => true
  | .extsl _ => true
  | .inc dst _ => dst.wellFormed
  | .incb dst _ => dst.wellFormed
  | .mult _ src => src.wellFormed
  | .multl _ src => src.wellFormed
  | .neg dst => dst.wellFormed
  | .negb dst => dst.wellFormed
  | .sbc _ _ => true
  | .sbcb _ _ => true
  | .sub _ src => src.wellFormed
  | .subb _ src => src.wellFormed
  | .subl _ src => src.wellFormed
  | .and _ src => src.wellFormed
  | .andb _ src => src.wellFormed
  | .or _ src => src.wellFormed
  | .orb _ src => src.wellFormed
  | .xor _ src => src.wellFormed
  | .xorb _ src => src.wellFormed
  | .com dst => dst.wellFormed
  | .comb dst => dst.wellFormed
  | .bit dst _ => dst.wellFormed
  | .bitb dst _ => dst.wellFormed
  | .bitDyn _ _ => true
  | .bitbDyn _ _ => true
  | .res dst _ => dst.wellFormed
  | .resb dst _ => dst.wellFormed
  | .resDyn _ _ => true
  | .resbDyn _ _ => true
  | .set dst _ => dst.wellFormed
  | .setb dst _ => dst.wellFormed
  | .setDyn _ _ => true
  | .setbDyn _ _ => true
  | .comflg _ => true
  | .resflg _ => true
  | .setflg _ => true
  | .tcc _ _ => true
  | .tccb _ _ => true
  | .test dst => dst.wellFormed
  | .testb dst => dst.wellFormed
  | .testl dst => dst.wellFormed
  | .tset dst => dst.wellFormed
  | .tsetb dst => dst.wellFormed
  | .call m => m.wellFormed
  | .calr _ => true
  | .djnz _ _ => true
  | .dbjnz _ _ => true
  | .jp _ m => m.wellFormed
  | .jr _ _ => true
  | .ret _ => true
  | .clr dst => dst.wellFormed
  | .clrb dst => dst.wellFormed
  | .ex _ src => src.wellFormed
  | .exb _ src => src.wellFormed
  | .ld _ src => src.wellFormed
  | .ldb _ src => src.wellFormed
  | .ldl _ src => src.wellFormed
  | .ldbShort _ _ => true
  | .ldStore dst _ => dst.wellFormed
  | .ldbStore dst _ => dst.wellFormed
  | .ldlStore dst _ => dst.wellFormed
  | .ldImm m _ => m.wellFormed
  | .ldbImm m _ => m.wellFormed
  | .lda _ src => src.wellFormed
  | .ldar _ _ => true
  | .ldk _ _ => true
  | .ldm _ m _ => m.wellFormed
  | .ldmStore m _ _ => m.wellFormed
  | .ldr _ _ => true
  | .ldrStore _ _ => true
  | .ldrb _ _ => true
  | .ldrbStore _ _ => true
  | .ldrl _ _ => true
  | .ldrlStore _ _ => true
  | .pop dst s => dst.wellFormed && s != 0
  | .popl dst s => dst.wellFormed && s != 0
  | .push d src => d != 0 && src.wellFormed
  | .pushl d src => d != 0 && src.wellFormed
  | .pushImm d _ => d != 0
  | .rl _ _ => true
  | .rlb _ _ => true
  | .rlc _ _ => true
  | .rlcb _ _ => true
  | .rr _ _ => true
  | .rrb _ _ => true
  | .rrc _ _ => true
  | .rrcb _ _ => true
  | .rldb _ _ => true
  | .rrdb _ _ => true
  | .sda _ _ => true
  | .sdab _ _ => true
  | .sdal _ _ => true
  | .sdl _ _ => true
  | .sdlb _ _ => true
  | .sdll _ _ => true
  | .sla _ count => !count.msb
  | .slab _ count => !count.msb
  | .slal _ count => !count.msb
  | .sll _ count => !count.msb
  | .sllb _ count => !count.msb
  | .slll _ count => !count.msb
  | .sra _ count => count.msb
  | .srab _ count => count.msb
  | .sral _ count => count.msb
  | .srl _ count => count.msb
  | .srlb _ count => count.msb
  | .srll _ count => count.msb
  | .cpd _ s _ _ => s != 0
  | .cpdb _ s _ _ => s != 0
  | .cpdr _ s _ _ => s != 0
  | .cpdrb _ s _ _ => s != 0
  | .cpi _ s _ _ => s != 0
  | .cpib _ s _ _ => s != 0
  | .cpir _ s _ _ => s != 0
  | .cpirb _ s _ _ => s != 0
  | .cpsd _ s _ _ => s != 0
  | .cpsdb _ s _ _ => s != 0
  | .cpsdr _ s _ _ => s != 0
  | .cpsdrb _ s _ _ => s != 0
  | .cpsi _ s _ _ => s != 0
  | .cpsib _ s _ _ => s != 0
  | .cpsir _ s _ _ => s != 0
  | .cpsirb _ s _ _ => s != 0
  | .ldd _ s _ => s != 0
  | .lddb _ s _ => s != 0
  | .lddr _ s _ => s != 0
  | .lddrb _ s _ => s != 0
  | .ldi _ s _ => s != 0
  | .ldib _ s _ => s != 0
  | .ldir _ s _ => s != 0
  | .ldirb _ s _ => s != 0
  | .trdb d _ _ => d != 0
  | .trdrb d _ _ => d != 0
  | .trib d _ _ => d != 0
  | .trirb d _ _ => d != 0
  | .trtdb s1 _ _ => s1 != 0
  | .trtdrb s1 _ _ => s1 != 0
  | .trtib s1 _ _ => s1 != 0
  | .trtirb s1 _ _ => s1 != 0
  | .inp _ port => port.wellFormed
  | .inb _ port => port.wellFormed
  | .sin _ _ => true
  | .sinb _ _ => true
  | .out port _ => port.wellFormed
  | .outb port _ => port.wellFormed
  | .sout _ _ => true
  | .soutb _ _ => true
  | .ind _ s _ => s != 0
  | .indb _ s _ => s != 0
  | .indr _ s _ => s != 0
  | .indrb _ s _ => s != 0
  | .ini _ s _ => s != 0
  | .inib _ s _ => s != 0
  | .inir _ s _ => s != 0
  | .inirb _ s _ => s != 0
  | .outd _ s _ => s != 0
  | .outdb _ s _ => s != 0
  | .otdr _ s _ => s != 0
  | .otdrb _ s _ => s != 0
  | .outi _ s _ => s != 0
  | .outib _ s _ => s != 0
  | .otir _ s _ => s != 0
  | .otirb _ s _ => s != 0
  | .sind _ s _ => s != 0
  | .sindb _ s _ => s != 0
  | .sindr _ s _ => s != 0
  | .sindrb _ s _ => s != 0
  | .sini _ s _ => s != 0
  | .sinib _ s _ => s != 0
  | .sinir _ s _ => s != 0
  | .sinirb _ s _ => s != 0
  | .soutd _ s _ => s != 0
  | .soutdb _ s _ => s != 0
  | .sotdr _ s _ => s != 0
  | .sotdrb _ s _ => s != 0
  | .souti _ s _ => s != 0
  | .soutib _ s _ => s != 0
  | .sotir _ s _ => s != 0
  | .sotirb _ s _ => s != 0
  | .di _ => true
  | .ei _ => true
  | .halt => true
  | .iret => true
  | .ldctlTo _ _ => true
  | .ldctlFrom _ _ => true
  | .ldctlbTo _ => true
  | .ldctlbFrom _ => true
  | .ldps m => m.wellFormed
  | .mbit => true
  | .mreq _ => true
  | .mres => true
  | .mset => true
  | .nop => true
  | .sc _ => true
  | .ldEpu w => trapInstr w = some (.ldEpu w)
  | .ldbEpu w => trapInstr w = some (.ldbEpu w)
  | .epui w => trapInstr w = some (.epui w)
  | .trappedReserved w => trapInstr w = some (.trappedReserved w)
  | .trappedEpu w => trapInstr w = some (.trappedEpu w)
  | .trappedReservedSc w => trapInstr w = some (.trappedReservedSc w)

end Sys2Proof
end

