-- ==== Sys2Proof/Certificates/Slice0/Obligations.lean ====
section
/-!
DEFINITION. Certificates/Slice0/Obligations.lean: the statements for the provers. `Completes i s post` says that `exec i s`
answers a next state that meets `post`; `OnlyChanged ds bs f s t` is the frame (Safety.lean). A statement about an
instruction starts from the state with the pc already past the instruction's words.
-/

open Sys2Proof Sys2Proof.Machine

/-! Encoding and decoding. -/

/-- Every well-formed instruction is read back from its words, whatever follows them. -/
def Obligations.DecodeReadsEncoded : Prop :=
  ∀ (i : Instr) (rest : List Word), i.wellFormed = true → decode (encode i ++ rest) = .ok (i, rest)

/-- What the decoder answers is well formed, took as many words as the instruction has, and these are one to three
(30_encoding.md R101). -/
def Obligations.DecodedInstructionIsWellFormed : Prop :=
  ∀ (ws : List Word) (i : Instr) (rest : List Word), decode ws = .ok (i, rest) →
    i.wellFormed = true ∧ rest = ws.drop (encode i).length ∧ (encode i).length ≤ ws.length ∧
      1 ≤ (encode i).length ∧ (encode i).length ≤ 3

/-- The trapped list: a first word is in it when it fits a pattern of 30_encoding.md R140, given here as the bits that are
not x and their values, in the order of its two columns. Every first word of the list but SC decodes, without a look at
the words after it, to an instruction whose meaning is the trap with that word as the identifier. -/
def Obligations.TrappedWordsTrap : Prop :=
  (∀ w : Word, (∃ k, trapKind w = some k) ↔ ∃ e ∈
      [(0xBE03#16, 0x0C03#16), (0xBE0A#16, 0x0C0A#16), (0xBE0C#16, 0x0C0C#16), (0xBF09#16, 0x0C09#16),
        (0xFF09#16, 0x4D09#16), (0x7F03#16, 0x0C03#16), (0x7F0A#16, 0x0C0A#16), (0x7F0C#16, 0x0C0C#16),
        (0xFF09#16, 0x8D09#16), (0xFF0A#16, 0x8D0A#16), (0xFF0C#16, 0x8D0C#16), (0xBF0F#16, 0x1C00#16),
        (0xBF02#16, 0x1C02#16), (0xBF04#16, 0x1C04#16), (0xBE00#16, 0x0E00#16), (0x7E00#16, 0x0E00#16),
        (0xFF00#16, 0x3600#16), (0xFF00#16, 0x3800#16), (0xFF01#16, 0x3901#16), (0xFF02#16, 0x3902#16),
        (0xFF04#16, 0x3904#16), (0xFF08#16, 0x3908#16), (0xFE0C#16, 0x3A0C#16), (0xFF09#16, 0x7B01#16),
        (0xFF0B#16, 0x7B02#16), (0xFF07#16, 0x7B03#16), (0xFF07#16, 0x7B04#16), (0xFF0E#16, 0x7B0E#16),
        (0xFF00#16, 0x7800#16), (0xFF01#16, 0x7901#16), (0xFF02#16, 0x7902#16), (0xFF04#16, 0x7904#16),
        (0xFF08#16, 0x7908#16), (0xFF06#16, 0x7D00#16), (0xFF05#16, 0x7D04#16), (0xFE00#16, 0x7E00#16),
        (0xFE01#16, 0x9C01#16), (0xFE02#16, 0x9C02#16), (0xFE04#16, 0x9C04#16), (0xFE08#16, 0x9C00#16),
        (0xFD00#16, 0x9D00#16), (0xFF05#16, 0xB205#16), (0xFF00#16, 0xB900#16), (0xFF01#16, 0xB801#16),
        (0xFE07#16, 0xBA03#16), (0xFE05#16, 0xBA05#16), (0xFF00#16, 0xBF00#16)],
      w &&& e.1 = e.2) ∧
  (∀ (w : Word) (k : TrapKind) (rest : List Word), trapKind w = some k → w.extractLsb' 8 8 ≠ 0x7F#8 →
    ∃ i, decode (w :: rest) = .ok (i, rest) ∧ ∀ s, exec i s = finish (s.trapEntry w s.pc 0x000C#16 0x000E#16))

/-- Words written out from the encoding tables decode to the instructions they stand for, one or more of each family. -/
def Obligations.SampleWordsDecode : Prop :=
  decode [0xB521#16] = .ok (.adc 1 2, []) ∧
  decode [0x0009#16, 0x2828#16] = .ok (.addb 9 (.imm 0x28), []) ∧
  decode [0x1602#16, 0x1234#16, 0x5678#16] = .ok (.addl 2 (.imm 0x12345678), []) ∧
  decode [0x4D51#16, 0x2000#16, 0x0007#16] = .ok (.cpMem (.x 0x2000 5) 7, []) ∧
  decode [0x2703#16, 0x0400#16] = .ok (.bitDyn 4 3, []) ∧
  decode [0x8DA5#16] = .ok (.comflg 0xA, []) ∧
  decode [0xD005#16] = .ok (.calr 5, []) ∧
  decode [0xF185#16] = .ok (.djnz 1 5, []) ∧
  decode [0x5C01#16, 0x0302#16, 0x4000#16] = .ok (.ldm 3 (.da 0x4000) 2, []) ∧
  decode [0x7121#16, 0x0300#16] = .ok (.ld 1 (.bx 2 3), []) ∧
  decode [0xB319#16, 0xFFFC#16] = .ok (.sra 1 0xFFFC, []) ∧
  decode [0xB319#16, 0x0004#16] = .ok (.sla 1 4, []) ∧
  decode [0xBB31#16, 0x0120#16] = .ok (.ldir 2 3 1, []) ∧
  decode [0x3B14#16, 0x0040#16] = .ok (.inp 1 (.da 0x0040), []) ∧
  decode [0x7D1D#16] = .ok (.ldctlTo .psap 1, []) ∧
  decode [0x7F12#16] = .ok (.sc 0x12, []) ∧
  decode [0x0F2C#16] = .ok (.ldEpu 0x0F2C, [])

/-- The decoder refuses by name a byte immediate whose halves differ (30_encoding.md R116), a last nibble of a block load or
block I/O second word that is neither 1000 nor 0000 (45_block_string.md R479, 46_io.md R547), and every first word that is
neither documented nor trapped (30_encoding.md R142): group A, an address register 0 where no other form takes its
place, group B, fixed zero bits that are not zero, and group C, function codes without a meaning. These are the
spec's decisions D7, D27 and D15 (notes/assumptions/12.md). -/
def Obligations.DecoderRefusesByName : Prop :=
  (∀ (v : Word) (rest : List Word), v.extractLsb' 8 8 ≠ v.extractLsb' 0 8 →
    (∀ op ∈ [0x00#6, 0x02#6, 0x04#6, 0x06#6, 0x08#6, 0x0A#6, 0x20#6], ∀ d : RegCode,
      decode (word1 0b00#2 op 0x0#4 d :: v :: rest) = .error .unequalImmediateHalves) ∧
    (∀ n0 ∈ [0x1#4, 0x5#4], ∀ (r : RegCode) (a : Word),
      (r ≠ 0 → decode (word1 0b00#2 0x0C#6 r n0 :: v :: rest) = .error .unequalImmediateHalves) ∧
      decode (word1 0b01#2 0x0C#6 r n0 :: a :: v :: rest) = .error .unequalImmediateHalves)) ∧
  (∀ op ∈ [0x3A#6, 0x3B#6], ∀ (r : RegCode) (v : Word) (rest : List Word),
    r ≠ 0 → n0Of v ≠ 0x8#4 → n0Of v ≠ 0x0#4 →
      (∀ n0 ∈ [0x1#4, 0x9#4], decode (word1 0b10#2 op r n0 :: v :: rest) = .error .reservedConditionNibble) ∧
      (∀ n0 ∈ [0x0#4, 0x1#4, 0x2#4, 0x3#4, 0x8#4, 0x9#4, 0xA#4, 0xB#4],
        decode (word1 0b00#2 op r n0 :: v :: rest) = .error .reservedConditionNibble)) ∧
  (∀ rest : List Word,
    (∀ e ∈ [(0b00#2, [0x11#6, 0x13#6, 0x15#6, 0x17#6, 0x1D#6, 0x1E#6, 0x1F#6, 0x28#6, 0x29#6, 0x2A#6, 0x2B#6, 0x2C#6,
          0x2D#6, 0x2E#6, 0x2F#6, 0x3C#6, 0x3D#6, 0x3E#6, 0x3F#6]),
        (0b01#2, [0x11#6, 0x13#6, 0x15#6, 0x17#6, 0x30#6, 0x31#6, 0x32#6, 0x33#6, 0x34#6, 0x35#6, 0x37#6]),
        (0b10#2, [0x11#6, 0x13#6, 0x15#6, 0x17#6])],
      ∀ op ∈ e.2, ∀ n0 : Nibble, decode (word1 e.1 op 0x0#4 n0 :: rest) = .error .unassignedOpcode) ∧
    (∀ op ∈ [0x11#6, 0x13#6, 0x15#6, 0x17#6], ∀ n1 : Nibble,
      decode (word1 0b00#2 op n1 0x0#4 :: rest) = .error .unassignedOpcode) ∧
    (∀ e ∈ [(0b00#2, [0x0C#6, 0x0D#6], [0x0#4, 0x1#4, 0x2#4, 0x4#4, 0x5#4, 0x6#4, 0x8#4]),
        (0b00#2, [0x0D#6], [0x9#4]), (0b00#2, [0x1C#6], [0x1#4, 0x8#4, 0x9#4]), (0b00#2, [0x39#6], [0x0#4]),
        (0b00#2, [0x3A#6, 0x3B#6], [0x0#4, 0x1#4, 0x2#4, 0x3#4, 0x8#4, 0x9#4, 0xA#4, 0xB#4]),
        (0b10#2, [0x38#6], [0x0#4, 0x2#4, 0x4#4, 0x6#4, 0x8#4, 0xA#4, 0xC#4, 0xE#4]),
        (0b10#2, [0x3A#6, 0x3B#6], [0x0#4, 0x1#4, 0x2#4, 0x4#4, 0x6#4, 0x8#4, 0x9#4, 0xA#4, 0xC#4, 0xE#4])],
      ∀ op ∈ e.2.1, ∀ n0 ∈ e.2.2, decode (word1 e.1 op 0x0#4 n0 :: rest) = .error .unassignedOpcode) ∧
    (∀ b : Byte, b ≠ 0 → decode ((0x7A#8 ++ b) :: rest) = .error .unassignedOpcode) ∧
    (∀ b : Byte, b.extractLsb' 3 5 ≠ 0 → decode ((0x7C#8 ++ b) :: rest) = .error .unassignedOpcode) ∧
    (∀ n1 : Nibble, n1 ≠ 0 →
      (∀ n0 ∈ [0x0#4, 0x8#4, 0x9#4, 0xA#4], decode ((0x7B#8 ++ n1 ++ n0) :: rest) = .error .unassignedOpcode) ∧
      decode ((0x8D#8 ++ n1 ++ 0x7#4) :: rest) = .error .unassignedOpcode ∧
      (∀ n0 : Nibble, decode ((0x9E#8 ++ n1 ++ n0) :: rest) = .error .unassignedOpcode)) ∧
    (∀ n1 : Nibble, decode ((0x8C#8 ++ n1 ++ 0x5#4) :: rest) = .error .unassignedOpcode ∧
      ∀ n0 : Nibble, n0 ≠ 0x0#4 → n0 ≠ 0x7#4 → n0 ≠ 0xA#4 →
        decode ((0xB1#8 ++ n1 ++ n0) :: rest) = .error .unassignedOpcode))

/-! Steps. -/

/-- When nothing is accepted and the processor is not halted, a step at an even pc runs the instruction that the words
there decode to, with the pc moved past its words, the clock one on, and this step's inputs taken. Words that are no
instruction, and an odd pc, are refused, by the spec's decisions D4, D7, D15 and D27 (notes/assumptions/12.md); but in
Normal mode block input and output take the Privileged Instruction trap whatever their second word is (60_exceptions.md
R706). That inputs are taken once a step is the model's choice (notes/assumptions/14.md). -/
def Obligations.StepRunsDecodedInstruction : Prop :=
  ∀ s : State, s.sampleInputs.1.reset = false → s.sampleInputs.2.interrupt s.sampleInputs.1 = none →
    s.halted = false →
    (∀ (i : Instr) (rest : List Word), evenAddress s.pc = true → decode s.instructionWords = .ok (i, rest) →
      step s = exec i { s.sampleInputs.2 with pc := s.pc + BitVec.ofNat 16 (2 * (3 - rest.length)) }) ∧
    (∀ why, evenAddress s.pc = true → decode s.instructionWords = .error why →
      (s.sys = true ∨ blockIoWord (s.wordAt .program s.pc) = false → step s = .refused (.undecodable why)) ∧
      (s.sys = false → blockIoWord (s.wordAt .program s.pc) = true → s.canEnter → ∃ t, step s = .next t ∧
        Entered (s.wordAt .program s.pc) (s.pc + 2) 0x0008#16 0x000A#16 s.sampleInputs.2 t)) ∧
    (evenAddress s.pc = false → step s = .refused .oddProgramCounter)

/-- Any well-formed instruction whose words stand in memory at an even pc is run by the next step of a processor that is
not halted and to which nothing is presented: `exec` of it, with the pc past its words and the clock one on. -/
def Obligations.StepRunsEncodedInstruction : Prop :=
  ∀ (s : State) (i : Instr), i.wellFormed = true → s.inputs = [] → s.nmip = false → s.halted = false →
    evenAddress s.pc = true →
    (∀ (k : Nat) (w : Word), (encode i)[k]? = some w → s.wordAt .program (s.pc + BitVec.ofNat 16 (2 * k)) = w) →
    step s = exec i { s with clock := s.clock + 1, pc := s.pc + BitVec.ofNat 16 (byteLength i) }

/-! Invariants and reset. -/

/-- Every step keeps the invariant: memory in its canonical form, the FCW as its mask leaves it (so System mode, EPA and
SEG clear), and the low byte of PSAP zero. -/
def Obligations.EveryStepKeepsInvariant : Prop := ∀ s t : State, s.Inv → step s = .next t → t.Inv

/-- The state after reset meets the invariant. -/
def Obligations.ResetMeetsInvariant : Prop := State.reset.Inv

/-- The state after reset has the values that 10_state.md R41 gives: FCW and pc are what its PROGRAM words 0x0002 and 0x0004
give (what unwritten memory holds is the model's choice, notes/assumptions/2.md). A clear NMI latch is the spec's decision
D9, which R41 takes over (notes/assumptions/16.md). -/
def Obligations.ResetHasTheGivenValues : Prop :=
  State.reset.psap = 0x0000#16 ∧ State.reset.refresh.getLsbD 15 = false ∧
  State.reset.fcw = fcwMask (State.reset.wordAt .program 0x0002#16) ∧
  State.reset.pc = State.reset.wordAt .program 0x0004#16 ∧ State.reset.mo = true ∧ State.reset.nmip = false ∧
  State.reset.halted = false

/-- A device reset comes before everything else: it clears PSAP, bit 15 of REFRESH, the NMI latch and the halted
condition, raises MOB, takes FCW and pc from PROGRAM 0x0002 and 0x0004, and leaves the general registers, NSP and
memory (70_reset_and_hazards.md R800). One atomic step and a cleared latch are the spec's decision D9
(notes/assumptions/16.md). -/
def Obligations.DeviceReset : Prop :=
  ∀ (s : State) (now : Sample) (later : List Sample), s.inputs = now :: later → now.reset = true →
    step s = .next { s with
      psap := 0x0000#16, refresh := s.refresh &&& 0x7FFF#16, nmip := false, halted := false, mo := true
      fcw := fcwMask (s.wordAt .program 0x0002#16), pc := s.wordAt .program 0x0004#16
      inputs := later, clock := s.clock + 1
      events := if s.mo then s.events else s.events ++ [.mob true] }

/-! Traps, interrupts and the return. -/

/-- Entering a trap or an interrupt (60_exceptions.md R701): the frame of pc, old FCW and identifier on the system stack,
FCW and pc from the Program Status Area, and nothing else. -/
def Obligations.EntryPushesFrameAndLoadsStatus : Prop :=
  ∀ (s : State) (identifier savedPc fcwOffset pcOffset : Word), s.canEnter → evenAddress fcwOffset = true →
    evenAddress pcOffset = true → ∃ t, s.trapEntry identifier savedPc fcwOffset pcOffset = .ok t ∧
      Entered identifier savedPc fcwOffset pcOffset s t

/-- SC, the EPU instructions and the trapped opcodes take the System Call and Unimplemented Instruction trap: identifier
the first word, saved pc that of the word after it, offsets 0x0C and 0x0E (60_exceptions.md R705, 48_epu.md R621). -/
def Obligations.SoftwareTrapsEnter : Prop :=
  ∀ s : State, s.canEnter →
    (∀ v : Byte, (∀ rest : List Word, decode ((0x7F#8 ++ v) :: rest) = .ok (.sc v, rest)) ∧
      Completes (.sc v) s (Entered (0x7F#8 ++ v) s.pc 0x000C#16 0x000E#16 s)) ∧
    (∀ w : Word, Completes (.ldEpu w) s (Entered w s.pc 0x000C#16 0x000E#16 s) ∧
      Completes (.ldbEpu w) s (Entered w s.pc 0x000C#16 0x000E#16 s) ∧
      Completes (.epui w) s (Entered w s.pc 0x000C#16 0x000E#16 s) ∧
      Completes (.trappedReserved w) s (Entered w s.pc 0x000C#16 0x000E#16 s) ∧
      Completes (.trappedEpu w) s (Entered w s.pc 0x000C#16 0x000E#16 s) ∧
      Completes (.trappedReservedSc w) s (Entered w s.pc 0x000C#16 0x000E#16 s))

/-- In Normal mode every privileged instruction takes the Privileged Instruction trap and has no other effect: identifier
its first word, saved pc that of its second word, offsets 0x08 and 0x0A (60_exceptions.md R706, R707). Revision 1 never
is in Normal mode, and which instructions are privileged is the spec's decision D28 (notes/assumptions/15.md). -/
def Obligations.PrivilegedInstructionTraps : Prop :=
  ∀ (i : Instr) (s : State), i.isPrivileged = true → s.sys = false → s.canEnter →
    Completes i s (Entered (firstWord i) (s.pc - BitVec.ofNat 16 (byteLength i) + 2) 0x0008#16 0x000A#16 s)

/-- A falling edge on NMIB is remembered until a non-maskable interrupt is accepted; that interrupt comes before the other
two whatever the FCW says, clears the latch, reads an identifier in one acknowledge, and enters with offsets 0x14 and
0x16 (60_exceptions.md R714, R712). That acceptance clears the latch is the spec's own derivation (R714,
notes/assumptions/25.md), and requests are presented once a step (notes/assumptions/14.md). -/
def Obligations.NonMaskableInterruptEnters : Prop :=
  ∀ s : State, s.canEnter →
    (∀ (now : Sample) (later : List Sample), s.inputs = now :: later → now.reset = false →
      (s.nmip = true ∨ now.nmiEdge = true) →
      ∃ t, step s = .next t ∧
        Entered (Config.acknowledgeWord (s.clock + 1) s.events .nonMaskable) s.pc 0x0014#16 0x0016#16
          { s with
            inputs := later, clock := s.clock + 1, nmip := false
            events := s.events ++ [.acknowledge .nonMaskable] } t) ∧
    (s.inputs = [] → s.nmip = true →
      ∃ t, step s = .next t ∧
        Entered (Config.acknowledgeWord (s.clock + 1) s.events .nonMaskable) s.pc 0x0014#16 0x0016#16
          { s with
            clock := s.clock + 1, nmip := false
            events := s.events ++ [.acknowledge .nonMaskable] } t)

/-- With no NMI pending, a vectored request that VIE enables is accepted before a non-vectored one, with the FCW at offset
0x1C and the pc that the low byte of the identifier selects; a non-vectored request that NVIE enables is accepted when
no enabled vectored request stands, with offsets 0x18 and 0x1A (60_exceptions.md R712, R715, R716). A request is
presented once a step (notes/assumptions/14.md), and address sums wrap (D19, notes/assumptions/17.md). -/
def Obligations.MaskableInterruptsEnter : Prop :=
  ∀ (s : State) (now : Sample) (later : List Sample), s.inputs = now :: later → now.reset = false →
    s.nmip = false → now.nmiEdge = false → s.canEnter →
    (now.vi = true → s.vie = true →
      ∃ t, step s = .next t ∧
        Entered (Config.acknowledgeWord (s.clock + 1) s.events .vectored) s.pc 0x001C#16
          (0x001E#16 + 2 * ((Config.acknowledgeWord (s.clock + 1) s.events .vectored) &&& 0x00FF#16))
          { s with inputs := later, clock := s.clock + 1, events := s.events ++ [.acknowledge .vectored] } t) ∧
    (¬(now.vi = true ∧ s.vie = true) → now.nvi = true → s.nvie = true →
      ∃ t, step s = .next t ∧
        Entered (Config.acknowledgeWord (s.clock + 1) s.events .nonVectored) s.pc 0x0018#16 0x001A#16
          { s with inputs := later, clock := s.clock + 1, events := s.events ++ [.acknowledge .nonVectored] } t)

/-- A request that the FCW disables is not accepted: with nothing else presented the step is the instruction at the pc
(60_exceptions.md R712); a halted processor stays halted, and only this step's inputs and one count of the clock go
(R719, 47_system.md R575; that a masked request does not end the halt is the spec's decision D30,
notes/assumptions/14.md). -/
def Obligations.DisabledRequestsAreNotAccepted : Prop :=
  ∀ (s : State), s.nmip = false →
    (s.inputs = [] → s.halted = true → step s = .next { s with clock := s.clock + 1 }) ∧
    (∀ (now : Sample) (later : List Sample), s.inputs = now :: later → now.reset = false → now.nmiEdge = false →
      (now.vi = true → s.vie = false) → (now.nvi = true → s.nvie = false) →
      (s.halted = true → step s = .next { s with clock := s.clock + 1, inputs := later }) ∧
      (s.halted = false → step s = runInstruction { s with inputs := later, clock := s.clock + 1 }))

/-- IRET in System mode skips the identifier, loads FCW and pc from the two words above it, releases the frame, and
changes nothing else (47_system.md R576). -/
def Obligations.InterruptReturnRestores : Prop :=
  ∀ s : State, s.sys = true → evenAddress s.regs[15] = true →
    exec .iret s = .next { s with
      regs := s.regs.set 15 (s.regs[15] + 6)
      fcw := fcwMask (s.wordAt .stack (s.regs[15] + 2)), pc := s.wordAt .stack (s.regs[15] + 4) }

/-- An IRET executed right after an entry brings back the FCW, the saved pc and every register; of memory only the six
bytes of the frame differ. -/
def Obligations.EntryThenReturnRestores : Prop :=
  ∀ (s t : State) (identifier savedPc fcwOffset pcOffset : Word), s.Inv → evenAddress s.regs[15] = true →
    s.trapEntry identifier savedPc fcwOffset pcOffset = .ok t →
    Completes .iret t fun u => u.fcw = s.fcw ∧ u.pc = savedPc ∧ u.regs = s.regs ∧ u.nsp = s.nsp ∧ u.psap = s.psap ∧
      ∀ sp a, a ∉ [s.regs[15] - 1, s.regs[15] - 2, s.regs[15] - 3, s.regs[15] - 4, s.regs[15] - 5, s.regs[15] - 6] →
        u.readByte sp a = s.readByte sp a

/-! Registers, memory, operands and conditions. -/

/-- The parts of the register file: RHn and RLn are the halves of Rn, a pair and a quadruple have the most significant
word in the lowest register (10_state.md R22, R23, R24; the spec marks the order as general knowledge,
notes/assumptions/10.md). The operands (30_encoding.md R130 to R134, R136 to R139): a register, the immediate, and a byte
or, at an even address, a word or long of memory; the address is that of IR, DA, X, BA or BX, in the STACK space through
R15, in DATA otherwise (the spec's decision D3, notes/assumptions/3.md), with sums modulo 2^16 (D19,
notes/assumptions/17.md). -/
def Obligations.RegistersAndOperands : Prop :=
  (∀ s : State,
    (∀ n : RegCode, n.getLsbD 3 = false → s.reg n = s.byteReg n ++ s.byteReg (n + 8)) ∧
    (∀ c : RegCode, pairCode c = true → s.pair c = .ok (s.reg c ++ s.reg (c + 1))) ∧
    (∀ c : RegCode, quadCode c = true →
      s.quad c = .ok (s.reg c ++ s.reg (c + 1) ++ (s.reg (c + 2) ++ s.reg (c + 3))))) ∧
  (∀ (s : State) (r x : RegCode) (a : Word),
    s.memLoc (.ir r) = (if r = 15 then Space.stack else Space.data, s.reg r) ∧
    s.memLoc (.da a) = (.data, a) ∧ s.memLoc (.x a r) = (.data, a + s.reg r) ∧
    s.ldDstLoc (.ba r a) = (if r = 15 then Space.stack else Space.data, s.reg r + a) ∧
    s.ldDstLoc (.bx r x) = (if r = 15 then Space.stack else Space.data, s.reg r + s.reg x) ∧
    ∀ m : Mem, s.ldDstLoc (.mem m) = s.memLoc m) ∧
  (∀ (s : State) (r : RegCode) (w : Word) (b : Byte) (l : Long),
    (s.srcWord (.reg r) = .ok (s.reg r) ∧ s.dstWord (.reg r) = .ok (s.reg r) ∧ s.ldSrcWord (.reg r) = .ok (s.reg r)) ∧
    (s.srcByte (.reg r) = .ok (s.byteReg r) ∧ s.dstByte (.reg r) = .ok (s.byteReg r) ∧
      s.ldSrcByte (.reg r) = .ok (s.byteReg r)) ∧
    (pairCode r = true → s.srcLong (.reg r) = .ok (s.reg r ++ s.reg (r + 1)) ∧
      s.dstLong (.reg r) = .ok (s.reg r ++ s.reg (r + 1)) ∧ s.ldSrcLong (.reg r) = .ok (s.reg r ++ s.reg (r + 1))) ∧
    s.srcWord (.imm w) = .ok w ∧ s.srcByte (.imm b) = .ok b ∧ s.srcLong (.imm l) = .ok l ∧
    s.ldSrcWord (.imm w) = .ok w ∧ s.ldSrcByte (.imm b) = .ok b ∧ s.ldSrcLong (.imm l) = .ok l) ∧
  (∀ s : State,
    (∀ (m : Mem) (a : Space × Word), a = s.memLoc m →
      s.srcByte (.mem m) = .ok (s.readByte a.1 a.2) ∧ s.dstByte (.mem m) = .ok (s.readByte a.1 a.2) ∧
      (evenAddress a.2 = true →
        s.srcWord (.mem m) = .ok (s.wordAt a.1 a.2) ∧ s.dstWord (.mem m) = .ok (s.wordAt a.1 a.2) ∧
        s.srcLong (.mem m) = .ok (s.wordAt a.1 a.2 ++ s.wordAt a.1 (a.2 + 2)) ∧
        s.dstLong (.mem m) = .ok (s.wordAt a.1 a.2 ++ s.wordAt a.1 (a.2 + 2)))) ∧
    (∀ (m : Mem) (r x : RegCode) (disp : Word),
      ∀ e ∈ [(LdDst.mem m, (LdSrc.mem m : LdSrc 8), (LdSrc.mem m : LdSrc 16), (LdSrc.mem m : LdSrc 32)),
          (.ba r disp, .ba r disp, .ba r disp, .ba r disp), (.bx r x, .bx r x, .bx r x, .bx r x)],
        ∀ a, a = s.ldDstLoc e.1 →
          s.ldSrcByte e.2.1 = .ok (s.readByte a.1 a.2) ∧
          (evenAddress a.2 = true → s.ldSrcWord e.2.2.1 = .ok (s.wordAt a.1 a.2) ∧
            s.ldSrcLong e.2.2.2 = .ok (s.wordAt a.1 a.2 ++ s.wordAt a.1 (a.2 + 2)))))

/-- What is stored is read back in big-endian order: a word's high byte at the lower address, a long's high word first; an
odd address of a word or long is refused (20_memory.md R64, R65, R67; the refusal is the spec's decision D4,
notes/assumptions/12.md, the wrap of the sums D19, notes/assumptions/17.md). -/
def Obligations.MemoryIsBigEndian : Prop :=
  ∀ (s : State) (sp : Space) (a : Word),
    (∀ v : Word, evenAddress a = true →
      ∃ t, s.writeWord sp a v = .ok t ∧ WordStored (sp, a) v {} s t ∧ t.readWord sp a = .ok v) ∧
    (∀ v : Long, evenAddress a = true →
      ∃ t, s.writeLong sp a v = .ok t ∧ LongStored (sp, a) v {} s t ∧ t.readLong sp a = .ok v) ∧
    (∀ (w : Word) (v : Long), evenAddress a = false →
      s.readWord sp a = .error .misalignedAccess ∧ s.writeWord sp a w = .error .misalignedAccess ∧
      s.readLong sp a = .error .misalignedAccess ∧ s.writeLong sp a v = .error .misalignedAccess)

/-- A word or long access at an odd address stops the instruction by name: a source or destination in memory of every word
and long form, LDM and LDPS, a relative operand, the stack of a call, a return and a trap, PUSH and POP, and the
pointers of the word block instructions (20_memory.md R67; the spec's decision D4, notes/assumptions/12.md). -/
def Obligations.OddAddressesAreRefused : Prop :=
  (∀ (s : State) (d : RegCode) (m : Mem) (n : Nibble) (v : Word), evenAddress (s.memLoc m).2 = false →
    (∀ e ∈ [Instr.add d (.mem m), .sub d (.mem m), .and d (.mem m), .or d (.mem m), .xor d (.mem m), .cp d (.mem m),
        .cpMem m v, .inc (.mem m) n, .dec (.mem m) n, .neg (.mem m), .com (.mem m), .test (.mem m), .testl (.mem m),
        .tset (.mem m), .clr (.mem m), .bit (.mem m) n, .res (.mem m) n, .set (.mem m) n, .ex d (.mem m), .ldImm m v,
        .ldm d m n, .ldmStore m d n, .push d (.mem m), .pushl d (.mem m), .pop (.mem m) d, .popl (.mem m) d],
      Refuses e s .misalignedAccess) ∧
    (pairCode d = true →
      ∀ e ∈ [Instr.addl d (.mem m), .subl d (.mem m), .cpl d (.mem m), .mult d (.mem m), .div d (.mem m)],
        Refuses e s .misalignedAccess) ∧
    (quadCode d = true → ∀ e ∈ [Instr.multl d (.mem m), .divl d (.mem m)], Refuses e s .misalignedAccess) ∧
    (s.sys = true → Refuses (.ldps m) s .misalignedAccess)) ∧
  (∀ (s : State) (d : RegCode) (m : Mem) (r x : RegCode) (disp : Word),
    ∀ e ∈ [(LdDst.mem m, (LdSrc.mem m : LdSrc 16), (LdSrc.mem m : LdSrc 32)),
        (.ba r disp, .ba r disp, .ba r disp), (.bx r x, .bx r x, .bx r x)],
      evenAddress (s.ldDstLoc e.1).2 = false →
        Refuses (.ld d e.2.1) s .misalignedAccess ∧ Refuses (.ldl d e.2.2) s .misalignedAccess ∧
        Refuses (.ldStore e.1 d) s .misalignedAccess ∧
        (pairCode d = true → Refuses (.ldlStore e.1 d) s .misalignedAccess)) ∧
  (∀ s : State, evenAddress (s.reg 15) = false →
    (∀ m : Mem, Refuses (.call m) s .misalignedAccess) ∧
    (∀ disp : BitVec 12, Refuses (.calr disp) s .misalignedAccess) ∧
    (∀ cc : Cond, s.cond cc = true → Refuses (.ret cc) s .misalignedAccess) ∧
    (s.sys = true → Refuses .iret s .misalignedAccess ∧ (∀ v : Byte, Refuses (.sc v) s .misalignedAccess) ∧
      ∀ w : Word, ∀ e ∈ [Instr.ldEpu w, .ldbEpu w, .epui w, .trappedReserved w, .trappedEpu w, .trappedReservedSc w],
        Refuses e s .misalignedAccess)) ∧
  (∀ (s : State) (sp d : RegCode) (m : Mem) (v : Word), evenAddress (s.reg sp) = false →
    (∀ e ∈ [Instr.push sp (.reg d), .push sp (.mem m), .pushImm sp v, .pushl sp (.mem m), .pop (.mem m) sp,
        .popl (.mem m) sp], Refuses e s .misalignedAccess) ∧
    (pairCode d = true → Refuses (.pushl sp (.reg d)) s .misalignedAccess) ∧
    (sp ≠ d → Refuses (.pop (.reg d) sp) s .misalignedAccess) ∧
    (sp ≠ d → sp ≠ d + 1 → Refuses (.popl (.reg d) sp) s .misalignedAccess)) ∧
  (∀ (s : State) (d : RegCode) (disp : Word), evenAddress (s.pc + disp) = false →
    Refuses (.ldr d disp) s .misalignedAccess ∧ Refuses (.ldrStore disp d) s .misalignedAccess ∧
    Refuses (.ldrl d disp) s .misalignedAccess ∧ (pairCode d = true → Refuses (.ldrlStore disp d) s .misalignedAccess)) ∧
  (∀ (s : State) (d p r : RegCode) (cc : Cond), p ≠ 0 → d ≠ p → d ≠ r → p ≠ r →
    (evenAddress (s.reg p) = false →
      ∀ e ∈ [Instr.cpd d p r cc, .cpdr d p r cc, .cpi d p r cc, .cpir d p r cc], Refuses e s .misalignedAccess) ∧
    (d ≠ 0 → evenAddress (s.reg p) = false ∨ evenAddress (s.reg d) = false →
      ∀ e ∈ [Instr.ldd d p r, .lddr d p r, .ldi d p r, .ldir d p r, .cpsd d p r cc, .cpsdr d p r cc, .cpsi d p r cc,
          .cpsir d p r cc], Refuses e s .misalignedAccess) ∧
    (d ≠ 0 → s.sys = true → evenAddress (s.reg d) = false →
      ∀ e ∈ [Instr.ind d p r, .indr d p r, .ini d p r, .inir d p r, .sind d p r, .sindr d p r, .sini d p r,
          .sinir d p r], Refuses e s .misalignedAccess) ∧
    (d ≠ 0 → s.sys = true → evenAddress (s.reg p) = false →
      ∀ e ∈ [Instr.outd d p r, .otdr d p r, .outi d p r, .otir d p r, .soutd d p r, .sotdr d p r, .souti d p r,
          .sotir d p r], Refuses e s .misalignedAccess))

/-- A field that names no pair or no quadruple (10_state.md R37), registers that must be separate but overlap
(70_reset_and_hazards.md R811), and R0 as a pointer in a second word (30_encoding.md R111) stop the instruction by
name: the spec's decisions D5, D6 and D15 (notes/assumptions/12.md). -/
def Obligations.IllegalFieldsAreRefused : Prop :=
  (∀ (s : State) (d r : RegCode) (src : Src 32) (w : Src 16) (count : Word),
    (pairCode d = false → Refuses (.addl d src) s .illegalRegisterCode ∧ Refuses (.subl d src) s .illegalRegisterCode ∧
      Refuses (.cpl d src) s .illegalRegisterCode ∧ Refuses (.mult d w) s .illegalRegisterCode ∧
      Refuses (.div d w) s .illegalRegisterCode ∧ Refuses (.exts d) s .illegalRegisterCode ∧
      Refuses (.testl (.reg d)) s .illegalRegisterCode ∧ Refuses (.pushl r (.reg d)) s .illegalRegisterCode ∧
      (∀ dst : LdDst, Refuses (.ldlStore dst d) s .illegalRegisterCode) ∧
      Refuses (.ldrlStore count d) s .illegalRegisterCode ∧
      (evenAddress (s.pc + count) = true → Refuses (.ldrl d count) s .illegalRegisterCode) ∧
      (r ≠ d → r ≠ d + 1 → evenAddress (s.reg r) = true → Refuses (.popl (.reg d) r) s .illegalRegisterCode) ∧
      (∀ e ∈ [Instr.addl r (.reg d), .subl r (.reg d), .cpl r (.reg d), .ldl r (.reg d), .multl r (.reg d),
          .divl r (.reg d)], Refuses e s .illegalRegisterCode) ∧
      (∀ (source : LdSrc 32) (v : Long), s.ldSrcLong source = .ok v → Refuses (.ldl d source) s .illegalRegisterCode) ∧
      Refuses (.sdal d r) s .illegalRegisterCode ∧ Refuses (.sdll d r) s .illegalRegisterCode ∧
      Refuses (.slal d count) s .illegalRegisterCode ∧ Refuses (.slll d count) s .illegalRegisterCode ∧
      Refuses (.sral d count) s .illegalRegisterCode ∧ Refuses (.srll d count) s .illegalRegisterCode) ∧
    (quadCode d = false → Refuses (.multl d src) s .illegalRegisterCode ∧
      Refuses (.divl d src) s .illegalRegisterCode ∧ Refuses (.extsl d) s .illegalRegisterCode)) ∧
  (∀ (s : State) (d r : RegCode), pairCode d = true → (r = d ∨ r = d + 1) →
    Refuses (.mult d (.reg r)) s .overlappingRegisters ∧ Refuses (.div d (.reg r)) s .overlappingRegisters ∧
    Refuses (.popl (.reg d) r) s .overlappingRegisters) ∧
  (∀ (s : State) (d r : RegCode), quadCode d = true → (r = d ∨ r = d + 2) →
    Refuses (.multl d (.reg r)) s .overlappingRegisters ∧ Refuses (.divl d (.reg r)) s .overlappingRegisters) ∧
  (∀ (s : State) (d : RegCode), Refuses (.pop (.reg d) d) s .overlappingRegisters ∧
    Refuses (.rldb d d) s .overlappingRegisters ∧ Refuses (.rrdb d d) s .overlappingRegisters) ∧
  (∀ (s : State) (d p r : RegCode) (cc : Cond),
    (p ≠ 0 → (d = p ∨ d = r ∨ p = r) → ∀ e ∈
      [Instr.cpd d p r cc, .cpdr d p r cc, .cpi d p r cc, .cpir d p r cc], Refuses e s .overlappingRegisters) ∧
    (p ≠ 0 → (byteHome d = p ∨ byteHome d = r ∨ p = r) → ∀ e ∈
      [Instr.cpdb d p r cc, .cpdrb d p r cc, .cpib d p r cc, .cpirb d p r cc], Refuses e s .overlappingRegisters) ∧
    (d ≠ 0 → p ≠ 0 → (d = p ∨ d = r ∨ p = r) → ∀ e ∈
      [Instr.cpsd d p r cc, .cpsdb d p r cc, .cpsdr d p r cc, .cpsdrb d p r cc, .cpsi d p r cc, .cpsib d p r cc,
        .cpsir d p r cc, .cpsirb d p r cc, .ldd d p r, .lddb d p r, .lddr d p r, .lddrb d p r, .ldi d p r,
        .ldib d p r, .ldir d p r, .ldirb d p r, .trdb d p r, .trdrb d p r, .trib d p r, .trirb d p r],
      Refuses e s .overlappingRegisters) ∧
    (d ≠ 0 → p ≠ 0 → (d = p ∨ d = r ∨ p = r ∨ d = 1 ∨ p = 1 ∨ r = 1) → ∀ e ∈
      [Instr.trtdb d p r, .trtdrb d p r, .trtib d p r, .trtirb d p r], Refuses e s .overlappingRegisters) ∧
    (s.sys = true → d ≠ 0 → p ≠ 0 → (d = p ∨ d = r ∨ p = r) → ∀ e ∈
      [Instr.ind d p r, .indb d p r, .indr d p r, .indrb d p r, .ini d p r, .inib d p r, .inir d p r, .inirb d p r,
        .sind d p r, .sindb d p r, .sindr d p r, .sindrb d p r, .sini d p r, .sinib d p r, .sinir d p r,
        .sinirb d p r, .outd d p r, .outdb d p r, .otdr d p r, .otdrb d p r, .outi d p r, .outib d p r, .otir d p r,
        .otirb d p r, .soutd d p r, .soutdb d p r, .sotdr d p r, .sotdrb d p r, .souti d p r, .soutib d p r,
        .sotir d p r, .sotirb d p r], Refuses e s .overlappingRegisters)) ∧
  (∀ (s : State) (d p r : RegCode) (cc : Cond), d = 0 ∨ p = 0 →
    (∀ e ∈
      [Instr.cpsd d p r cc, .cpsdb d p r cc, .cpsdr d p r cc, .cpsdrb d p r cc, .cpsi d p r cc, .cpsib d p r cc,
        .cpsir d p r cc, .cpsirb d p r cc, .ldd d p r, .lddb d p r, .lddr d p r, .lddrb d p r, .ldi d p r,
        .ldib d p r, .ldir d p r, .ldirb d p r, .trdb d p r, .trdrb d p r, .trib d p r, .trirb d p r, .trtdb d p r,
        .trtdrb d p r, .trtib d p r, .trtirb d p r], Refuses e s .zeroPointerRegister) ∧
    (s.sys = true → ∀ e ∈
      [Instr.ind d p r, .indb d p r, .indr d p r, .indrb d p r, .ini d p r, .inib d p r, .inir d p r, .inirb d p r,
        .sind d p r, .sindb d p r, .sindr d p r, .sindrb d p r, .sini d p r, .sinib d p r, .sinir d p r,
        .sinirb d p r, .outd d p r, .outdb d p r, .otdr d p r, .otdrb d p r, .outi d p r, .outib d p r, .otir d p r,
        .otirb d p r, .soutd d p r, .soutdb d p r, .sotdr d p r, .sotdrb d p r, .souti d p r, .soutib d p r,
        .sotir d p r, .sotirb d p r], Refuses e s .zeroPointerRegister))

/-- The sixteen condition codes, by the flags they test (30_encoding.md R125); after CP they compare the register with the
source, as signed and as unsigned numbers. That meaning after CP is the spec's own derivation (40_arithmetic.md R215,
notes/assumptions/19.md), and the exclusive or and the or of the table are its reading C17 of damaged text
(notes/assumptions/25.md). -/
def Obligations.ConditionsTestFlagsAndCompare : Prop :=
  (∀ s : State, (List.range 16).map (fun k => s.cond (Cond.ofCode (BitVec.ofNat 4 k))) =
    [false, s.sign ^^ s.overflow, s.zero || (s.sign ^^ s.overflow), s.carry || s.zero, s.overflow, s.sign, s.zero,
      s.carry, true, !(s.sign ^^ s.overflow), !(s.zero || (s.sign ^^ s.overflow)), !s.carry && !s.zero, !s.overflow,
      !s.sign, !s.zero, !s.carry]) ∧
  (∀ (s : State) (d : RegCode) (src : Src 16) (v : Word), s.srcWord src = .ok v →
    Completes (.cp d src) s fun t =>
      t.cond .lt = decide ((s.reg d).toInt < v.toInt) ∧ t.cond .le = decide ((s.reg d).toInt ≤ v.toInt) ∧
      t.cond .gt = decide (v.toInt < (s.reg d).toInt) ∧ t.cond .ge = decide (v.toInt ≤ (s.reg d).toInt) ∧
      t.cond .c = decide ((s.reg d).toNat < v.toNat) ∧ t.cond .ule = decide ((s.reg d).toNat ≤ v.toNat) ∧
      t.cond .ugt = decide (v.toNat < (s.reg d).toNat) ∧ t.cond .nc = decide (v.toNat ≤ (s.reg d).toNat) ∧
      t.cond .z = decide (s.reg d = v) ∧ t.cond .nz = decide (s.reg d ≠ v))

/-! The shared computations. -/

/-- The addition helper (40_arithmetic.md R201), of any width: the sum modulo 2^n, the carry out, the sign, overflow when
the exact signed sum is no n-bit number, and the carry out of bit 3. The spec derives these formulas from the words of
the manual (notes/assumptions/19.md). -/
def Obligations.AdditionHelper : Prop :=
  ∀ (n : Nat) (a b : BitVec n) (cin : Bool), 0 < n →
    (addWith a b cin).value.toNat = (a.toNat + b.toNat + cin.toNat) % 2 ^ n ∧
    (addWith a b cin).c = decide (2 ^ n ≤ a.toNat + b.toNat + cin.toNat) ∧
    (addWith a b cin).z = decide ((addWith a b cin).value.toNat = 0) ∧
    (addWith a b cin).s = decide ((addWith a b cin).value.toInt < 0) ∧
    (addWith a b cin).v = decide ((addWith a b cin).value.toInt ≠ a.toInt + b.toInt + (cin.toNat : Int)) ∧
    (addWith a b cin).h = decide (15 < a.toNat % 16 + b.toNat % 16 + cin.toNat)

/-- The subtraction helper (40_arithmetic.md R202), of any width: the difference modulo 2^n, the borrow, the sign, overflow
when the exact signed difference is no n-bit number, and the borrow out of bit 3. The spec derives these formulas from
the words of the manual (notes/assumptions/19.md). -/
def Obligations.SubtractionHelper : Prop :=
  ∀ (n : Nat) (a b : BitVec n) (bin : Bool), 0 < n →
    ((subWith a b bin).value.toNat : Int) = ((a.toNat : Int) - b.toNat - bin.toNat) % 2 ^ n ∧
    (subWith a b bin).c = decide (a.toNat < b.toNat + bin.toNat) ∧
    (subWith a b bin).z = decide ((subWith a b bin).value.toNat = 0) ∧
    (subWith a b bin).s = decide ((subWith a b bin).value.toInt < 0) ∧
    (subWith a b bin).v = decide ((subWith a b bin).value.toInt ≠ a.toInt - b.toInt - (bin.toNat : Int)) ∧
    (subWith a b bin).h = decide (a.toNat % 16 < b.toNat % 16 + bin.toNat)

/-- The division helper (40_arithmetic.md R225 to R229): a zero divisor is a case of its own; where a quotient and a
remainder are given, they divide exactly, the remainder is smaller than the divisor and has the dividend's sign, and
the quotient lies in the range of its case; a quotient is refused a place only beyond both ranges. The remainder's
sign is the spec's decision D11 (notes/assumptions/8.md), and the bound 2^n - 1 is its reading of a damaged sentence
(R228, notes/assumptions/19.md). -/
def Obligations.DivisionHelper : Prop :=
  ∀ (n : Nat) (x y : Int), 0 < n →
    (divideInt n x y = .byZero ↔ y = 0) ∧
    (∀ q r, (divideInt n x y = .fits q r ∨ divideInt n x y = .wide q r) →
      x = q * y + r ∧ |r| < |y| ∧ (0 ≤ x → 0 ≤ r) ∧ (x ≤ 0 → r ≤ 0)) ∧
    (∀ q r, divideInt n x y = .fits q r → -(2 ^ (n - 1)) ≤ q ∧ q ≤ 2 ^ (n - 1) - 1) ∧
    (∀ q r, divideInt n x y = .wide q r → (q < -(2 ^ (n - 1)) ∨ 2 ^ (n - 1) - 1 < q) ∧ |q| ≤ 2 ^ n - 1) ∧
    (divideInt n x y = .tooLarge → 2 ^ n - 1 < |x.tdiv y|)

/-- Shifts by a signed count (44_rotate_shift.md R435, R436), value and flags whole: left, arithmetic right and logical right
by the count, C the last bit out, Z and S those of the result. V says whether the sign changed in some step, so that it
is the old sign after a logical right shift and clear after an arithmetic one (the spec's decision D12,
notes/assumptions/19.md). A zero count leaves the value, clears V, and clears C or leaves it. D and H stay. -/
def Obligations.ShiftByWholeCount : Prop :=
  ∀ (n : Nat) (x : BitVec n) (k : Nat) (carry : ZeroCountCarry), 0 < n →
    (∀ arithmetic : Bool, shiftResult arithmetic x (k + 1) carry = (x <<< (k + 1),
      { c := (x <<< k).msb, z := x <<< (k + 1) == 0, s := (x <<< (k + 1)).msb,
        v := (List.range (k + 1)).any fun j => (x <<< (j + 1)).msb != (x <<< j).msb })) ∧
    shiftResult true x (-(k + 1)) carry = (x.sshiftRight (k + 1),
      { c := (x.sshiftRight k).getLsbD 0, z := x.sshiftRight (k + 1) == 0, s := x.msb, v := false }) ∧
    shiftResult false x (-(k + 1)) carry = (x >>> (k + 1),
      { c := x.getLsbD k, z := x >>> (k + 1) == 0, s := false, v := x.msb }) ∧
    (∀ arithmetic : Bool,
      shiftResult arithmetic x 0 .cleared = (x, { c := false, z := x == 0, s := x.msb, v := false }) ∧
      shiftResult arithmetic x 0 .unaffected = (x, { z := x == 0, s := x.msb, v := false }))

/-- A rotate of a word or a byte by one or two (44_rotate_shift.md R421) is a rotation of the n bits, or with C of the n + 1
bits that C and the value make; the plain rotates leave in C the bit that came around. V says whether the sign bit
changed in one of the single steps: in the first, or, by two, in the second; this reading of "overflow during rotate" is
the spec's decision D12 (notes/assumptions/19.md). -/
def Obligations.RotateIsRotation : Prop :=
  ∀ (two : Bool) (x : Word) (y : Byte) (c : Bool),
    (rotateBy .rl two x c).x = x.rotateLeft (if two then 2 else 1) ∧
    (rotateBy .rl two x c).c = (rotateBy .rl two x c).x.getLsbD 0 ∧
    (rotateBy .rr two x c).x = x.rotateRight (if two then 2 else 1) ∧
    (rotateBy .rr two x c).c = (rotateBy .rr two x c).x.msb ∧
    BitVec.ofBool (rotateBy .rlc two x c).c ++ (rotateBy .rlc two x c).x =
      (BitVec.ofBool c ++ x).rotateLeft (if two then 2 else 1) ∧
    BitVec.ofBool (rotateBy .rrc two x c).c ++ (rotateBy .rrc two x c).x =
      (BitVec.ofBool c ++ x).rotateRight (if two then 2 else 1) ∧
    (rotateBy .rl two y c).x = y.rotateLeft (if two then 2 else 1) ∧
    (rotateBy .rl two y c).c = (rotateBy .rl two y c).x.getLsbD 0 ∧
    (rotateBy .rr two y c).x = y.rotateRight (if two then 2 else 1) ∧
    (rotateBy .rr two y c).c = (rotateBy .rr two y c).x.msb ∧
    BitVec.ofBool (rotateBy .rlc two y c).c ++ (rotateBy .rlc two y c).x =
      (BitVec.ofBool c ++ y).rotateLeft (if two then 2 else 1) ∧
    BitVec.ofBool (rotateBy .rrc two y c).c ++ (rotateBy .rrc two y c).x =
      (BitVec.ofBool c ++ y).rotateRight (if two then 2 else 1) ∧
    ∀ k ∈ [ShiftKind.rl, .rlc, .rr, .rrc],
    (rotateBy k two x c).v =
      ((rotateBy k false x c).x.msb != x.msb ||
        two && (rotateBy k true x c).x.msb != (rotateBy k false x c).x.msb) ∧
    (rotateBy k two y c).v =
      ((rotateBy k false y c).x.msb != y.msb ||
        two && (rotateBy k true y c).x.msb != (rotateBy k false y c).x.msb)

/-! Arithmetic and logic: results, flags and frames. -/

/-- ADC, SBC, ADD, SUB, AND, OR, XOR on words, ADDL and SUBL on a legal pair: the register holds the result, the flags are
those of the result, D and H and (for the logical three) C and V stay, and nothing else changes (40_arithmetic.md R210,
R212, R214, R240, R242, R244, 41_logical_bit.md R262, R282, R302). The helpers' formulas are those of AdditionHelper and
SubtractionHelper (notes/assumptions/19.md). -/
def Obligations.WordAndLongArithmeticAndLogic : Prop :=
  ∀ (s : State) (d : RegCode),
    (∀ (r : RegCode) (a : Alu 16),
      (a = addWith (s.reg d) (s.reg r) s.carry → Completes (.adc d r) s
        (WordRegister d a.value { c := a.c, z := a.z, s := a.s, v := a.v } s)) ∧
      (a = subWith (s.reg d) (s.reg r) s.carry → Completes (.sbc d r) s
        (WordRegister d a.value { c := a.c, z := a.z, s := a.s, v := a.v } s))) ∧
    (∀ (src : Src 16) (v : Word), s.srcWord src = .ok v →
      (∀ a : Alu 16,
        (a = addWith (s.reg d) v false → Completes (.add d src) s
          (WordRegister d (s.reg d + v) { c := a.c, z := a.z, s := a.s, v := a.v } s)) ∧
        (a = subWith (s.reg d) v false → Completes (.sub d src) s
          (WordRegister d (s.reg d - v) { c := a.c, z := a.z, s := a.s, v := a.v } s))) ∧
      Completes (.and d src) s
        (WordRegister d (s.reg d &&& v) { z := (s.reg d &&& v) == 0, s := (s.reg d &&& v).msb } s) ∧
      Completes (.or d src) s
        (WordRegister d (s.reg d ||| v) { z := (s.reg d ||| v) == 0, s := (s.reg d ||| v).msb } s) ∧
      Completes (.xor d src) s
        (WordRegister d (s.reg d ^^^ v) { z := (s.reg d ^^^ v) == 0, s := (s.reg d ^^^ v).msb } s)) ∧
    (∀ (src : Src 32) (v : Long) (a : Alu 32), pairCode d = true → s.srcLong src = .ok v →
      (a = addWith (s.reg d ++ s.reg (d + 1)) v false → Completes (.addl d src) s
        (LongRegister d (s.reg d ++ s.reg (d + 1) + v) { c := a.c, z := a.z, s := a.s, v := a.v } s)) ∧
      (a = subWith (s.reg d ++ s.reg (d + 1)) v false → Completes (.subl d src) s
        (LongRegister d (s.reg d ++ s.reg (d + 1) - v) { c := a.c, z := a.z, s := a.s, v := a.v } s)))

/-- ADCB, SBCB, ADDB, SUBB, ANDB, ORB, XORB: as the word forms, and D is cleared by an addition and set by a subtraction,
H is the carry or borrow of bit 3, and V of a logical result is set when it has an even number of ones
(40_arithmetic.md R211, R213, R241, R243, 41_logical_bit.md R263, R283, R303). The helpers' formulas are those of
AdditionHelper and SubtractionHelper (notes/assumptions/19.md). -/
def Obligations.ByteArithmeticAndLogic : Prop :=
  ∀ (s : State) (d : RegCode),
    (∀ (r : RegCode) (a : Alu 8),
      (a = addWith (s.byteReg d) (s.byteReg r) s.carry → Completes (.adcb d r) s
        (ByteRegister d a.value { c := a.c, z := a.z, s := a.s, v := a.v, d := false, h := a.h } s)) ∧
      (a = subWith (s.byteReg d) (s.byteReg r) s.carry → Completes (.sbcb d r) s
        (ByteRegister d a.value { c := a.c, z := a.z, s := a.s, v := a.v, d := true, h := a.h } s))) ∧
    (∀ (src : Src 8) (v : Byte), s.srcByte src = .ok v →
      (∀ a : Alu 8,
        (a = addWith (s.byteReg d) v false → Completes (.addb d src) s
          (ByteRegister d (s.byteReg d + v) { c := a.c, z := a.z, s := a.s, v := a.v, d := false, h := a.h } s)) ∧
        (a = subWith (s.byteReg d) v false → Completes (.subb d src) s
          (ByteRegister d (s.byteReg d - v) { c := a.c, z := a.z, s := a.s, v := a.v, d := true, h := a.h } s))) ∧
      (∀ x : Byte, ∀ even : Bool, even = decide ((List.range 8).countP (fun k => x.getLsbD k) % 2 = 0) →
        (x = s.byteReg d &&& v →
          Completes (.andb d src) s (ByteRegister d x { z := x == 0, s := x.msb, v := even } s)) ∧
        (x = s.byteReg d ||| v →
          Completes (.orb d src) s (ByteRegister d x { z := x == 0, s := x.msb, v := even } s)) ∧
        (x = s.byteReg d ^^^ v →
          Completes (.xorb d src) s (ByteRegister d x { z := x == 0, s := x.msb, v := even } s))))

/-- The compares, tests and bit tests write flags and nothing else (40_arithmetic.md R215 to R219, 41_logical_bit.md R264 to
R267, R296 to R298). The formulas of the compares are those of SubtractionHelper (notes/assumptions/19.md). -/
def Obligations.ComparesAndTestsWriteFlagsOnly : Prop :=
  ∀ (s : State),
    (∀ (d : RegCode) (src : Src 16) (v : Word) (x : Alu 16), s.srcWord src = .ok v → x = subWith (s.reg d) v false →
      Completes (.cp d src) s (OnlyChanged [] [] { c := x.c, z := x.z, s := x.s, v := x.v } s)) ∧
    (∀ (d : RegCode) (src : Src 8) (v : Byte) (x : Alu 8), s.srcByte src = .ok v → x = subWith (s.byteReg d) v false →
      Completes (.cpb d src) s (OnlyChanged [] [] { c := x.c, z := x.z, s := x.s, v := x.v } s)) ∧
    (∀ (d : RegCode) (src : Src 32) (v : Long) (x : Alu 32), pairCode d = true → s.srcLong src = .ok v →
      x = subWith (s.reg d ++ s.reg (d + 1)) v false →
      Completes (.cpl d src) s (OnlyChanged [] [] { c := x.c, z := x.z, s := x.s, v := x.v } s)) ∧
    (∀ (dst : Dst) (a : Word), s.dstWord dst = .ok a →
      (∀ (m : Mem) (v : Word) (x : Alu 16), dst = .mem m → x = subWith a v false →
        Completes (.cpMem m v) s (OnlyChanged [] [] { c := x.c, z := x.z, s := x.s, v := x.v } s)) ∧
      Completes (.test dst) s (OnlyChanged [] [] { z := a == 0, s := a.msb } s) ∧
      (∀ b : Nibble, Completes (.bit dst b) s (OnlyChanged [] [] { z := !a.getLsbD b.toNat } s))) ∧
    (∀ (dst : Dst) (a : Byte), s.dstByte dst = .ok a →
      (∀ (m : Mem) (v : Byte) (x : Alu 8), dst = .mem m → x = subWith a v false →
        Completes (.cpbMem m v) s (OnlyChanged [] [] { c := x.c, z := x.z, s := x.s, v := x.v } s)) ∧
      Completes (.testb dst) s (OnlyChanged [] []
        { z := a == 0, s := a.msb, v := decide ((List.range 8).countP (fun k => a.getLsbD k) % 2 = 0) } s) ∧
      (∀ b : BitVec 3, Completes (.bitb dst b) s (OnlyChanged [] [] { z := !a.getLsbD b.toNat } s))) ∧
    (∀ (dst : Dst) (a : Long), s.dstLong dst = .ok a →
      Completes (.testl dst) s (OnlyChanged [] [] { z := a == 0, s := a.msb } s)) ∧
    (∀ d r : RegCode,
      Completes (.bitDyn d r) s (OnlyChanged [] [] { z := !(s.reg d).getLsbD ((s.reg r).toNat % 16) } s) ∧
      Completes (.bitbDyn d r) s (OnlyChanged [] [] { z := !(s.byteReg d).getLsbD ((s.reg r).toNat % 8) } s))

/-- INC, DEC, NEG, COM, TSET and CLR on a word operand, register or memory (40_arithmetic.md R221, R233, R238,
41_logical_bit.md R272, R300, 43_load_store.md R351). C of NEG is the borrow by the spec's decision D24, V of INC and DEC
the formula of the helpers (notes/assumptions/19.md), and COM is the ones complement by its reading C12 of a misprint
(notes/assumptions/25.md). -/
def Obligations.WordReadModifyWrite : Prop :=
  ∀ (s : State) (dst : Dst) (a : Word), s.dstWord dst = .ok a →
    (∀ (n : Nibble) (x : Alu 16),
      (x = addWith a (BitVec.ofNat 16 (n.toNat + 1)) false → Completes (.inc dst n) s
        (WordOperand dst (a + BitVec.ofNat 16 (n.toNat + 1)) { z := x.z, s := x.s, v := x.v } s)) ∧
      (x = subWith a (BitVec.ofNat 16 (n.toNat + 1)) false → Completes (.dec dst n) s
        (WordOperand dst (a - BitVec.ofNat 16 (n.toNat + 1)) { z := x.z, s := x.s, v := x.v } s))) ∧
    Completes (.neg dst) s (WordOperand dst (-a)
      { c := decide (a ≠ 0), z := a == 0, s := (-a).msb, v := a == 0x8000#16 } s) ∧
    Completes (.com dst) s (WordOperand dst (~~~a) { z := ~~~a == 0, s := !a.msb } s) ∧
    Completes (.tset dst) s (WordOperand dst 0xFFFF#16 { s := a.msb } s) ∧
    Completes (.clr dst) s (WordOperand dst 0x0000#16 {} s)

/-- INCB, DECB, NEGB, COMB, TSETB and CLRB on a byte operand, register or memory (40_arithmetic.md R222, R234, R239,
41_logical_bit.md R273, R301, 43_load_store.md R352). C of NEGB is the borrow by the spec's decision D24, V of INCB
and DECB the formula of the helpers (notes/assumptions/19.md), and COMB is the ones complement by its reading C12 of a
misprint (notes/assumptions/25.md). -/
def Obligations.ByteReadModifyWrite : Prop :=
  ∀ (s : State) (dst : Dst) (a : Byte), s.dstByte dst = .ok a →
    (∀ (n : Nibble) (x : Alu 8),
      (x = addWith a (BitVec.ofNat 8 (n.toNat + 1)) false → Completes (.incb dst n) s
        (ByteOperand dst (a + BitVec.ofNat 8 (n.toNat + 1)) { z := x.z, s := x.s, v := x.v } s)) ∧
      (x = subWith a (BitVec.ofNat 8 (n.toNat + 1)) false → Completes (.decb dst n) s
        (ByteOperand dst (a - BitVec.ofNat 8 (n.toNat + 1)) { z := x.z, s := x.s, v := x.v } s))) ∧
    Completes (.negb dst) s (ByteOperand dst (-a)
      { c := decide (a ≠ 0), z := a == 0, s := (-a).msb, v := a == 0x80#8 } s) ∧
    Completes (.comb dst) s (ByteOperand dst (~~~a)
      { z := ~~~a == 0, s := !a.msb, v := decide ((List.range 8).countP (fun k => (~~~a).getLsbD k) % 2 = 0) } s) ∧
    Completes (.tsetb dst) s (ByteOperand dst 0xFF#8 { s := a.msb } s) ∧
    Completes (.clrb dst) s (ByteOperand dst 0x00#8 {} s)

/-- RES and SET, static and dynamic: one bit of the operand is cleared or set, and no flag changes (41_logical_bit.md R284 to
R287, R289 to R292). -/
def Obligations.BitsClearedAndSet : Prop :=
  ∀ (s : State),
    (∀ (dst : Dst) (a : Word) (b : Nibble), s.dstWord dst = .ok a →
      Completes (.res dst b) s (WordOperand dst (a &&& ~~~(1#16 <<< b.toNat)) {} s) ∧
      Completes (.set dst b) s (WordOperand dst (a ||| (1#16 <<< b.toNat)) {} s)) ∧
    (∀ (dst : Dst) (a : Byte) (b : BitVec 3), s.dstByte dst = .ok a →
      Completes (.resb dst b) s (ByteOperand dst (a &&& ~~~(1#8 <<< b.toNat)) {} s) ∧
      Completes (.setb dst b) s (ByteOperand dst (a ||| (1#8 <<< b.toNat)) {} s)) ∧
    (∀ d r : RegCode,
      Completes (.resDyn d r) s (WordRegister d (s.reg d &&& ~~~(1#16 <<< ((s.reg r).toNat % 16))) {} s) ∧
      Completes (.setDyn d r) s (WordRegister d (s.reg d ||| (1#16 <<< ((s.reg r).toNat % 16))) {} s) ∧
      Completes (.resbDyn d r) s (ByteRegister d (s.byteReg d &&& ~~~(1#8 <<< ((s.reg r).toNat % 8))) {} s) ∧
      Completes (.setbDyn d r) s (ByteRegister d (s.byteReg d ||| (1#8 <<< ((s.reg r).toNat % 8))) {} s))

/-- COMFLG, RESFLG, SETFLG (41_logical_bit.md R281, R288, R293): their encodings, and their effect on the flags their field
names, with H complemented by every COMFLG. TCC and TCCB set bit 0 of their register when the condition holds and change
nothing when it does not (R294, R295). -/
def Obligations.FlagAndConditionInstructions : Prop :=
  ∀ (s : State),
    (∀ f : Nibble,
      (∀ rest : List Word, decode ((0x8D#8 ++ f ++ 0x5#4) :: rest) = .ok (.comflg f, rest) ∧
        decode ((0x8D#8 ++ f ++ 0x3#4) :: rest) = .ok (.resflg f, rest) ∧
        decode ((0x8D#8 ++ f ++ 0x1#4) :: rest) = .ok (.setflg f, rest)) ∧
      Completes (.comflg f) s (OnlyChanged [] []
        { c := if f.getLsbD 3 then some (!s.carry) else none, z := if f.getLsbD 2 then some (!s.zero) else none,
          s := if f.getLsbD 1 then some (!s.sign) else none, v := if f.getLsbD 0 then some (!s.overflow) else none,
          h := some (!s.halfCarry) } s) ∧
      Completes (.resflg f) s (OnlyChanged [] []
        { c := if f.getLsbD 3 then some false else none, z := if f.getLsbD 2 then some false else none,
          s := if f.getLsbD 1 then some false else none, v := if f.getLsbD 0 then some false else none } s) ∧
      Completes (.setflg f) s (OnlyChanged [] []
        { c := if f.getLsbD 3 then some true else none, z := if f.getLsbD 2 then some true else none,
          s := if f.getLsbD 1 then some true else none, v := if f.getLsbD 0 then some true else none } s)) ∧
    (∀ (cc : Cond) (d : RegCode),
      (s.cond cc = true → Completes (.tcc cc d) s (WordRegister d (s.reg d ||| 0x0001#16) {} s) ∧
        Completes (.tccb cc d) s (ByteRegister d (s.byteReg d ||| 0x01#8) {} s)) ∧
      (s.cond cc = false → exec (.tcc cc d) s = .next s ∧ exec (.tccb cc d) s = .next s))

/-- MULT and MULTL: the exact signed product, most significant part first; C when it does not fit the lower half, Z and S
of the product, V cleared (40_arithmetic.md R235 to R237). -/
def Obligations.MultiplyGivesExactProduct : Prop :=
  ∀ (s : State) (d : RegCode),
    (∀ (src : Src 16) (v : Word), pairCode d = true → src ≠ .reg d → src ≠ .reg (d + 1) → s.srcWord src = .ok v →
      ∃ p : Long, p.toInt = (s.reg (d + 1)).toInt * v.toInt ∧
        Completes (.mult d src) s (LongRegister d p
          { c := decide (p.toInt < -(2 ^ 15) ∨ 2 ^ 15 ≤ p.toInt), z := p == 0, s := p.msb, v := false } s)) ∧
    (∀ (src : Src 32) (v : Long), quadCode d = true → src ≠ .reg d → src ≠ .reg (d + 2) → s.srcLong src = .ok v →
      ∃ p : Quad, p.toInt = (s.reg (d + 2) ++ s.reg (d + 3)).toInt * v.toInt ∧
        Completes (.multl d src) s (QuadRegister d p
          { c := decide (p.toInt < -(2 ^ 31) ∨ 2 ^ 31 ≤ p.toInt), z := p == 0, s := p.msb, v := false } s))

/-- DIV and DIVL: remainder in the upper half and quotient in the lower, in the cases that have them; the old value on a
zero divisor; a free value, the flags as given, when the quotient is too large (40_arithmetic.md R223 to R229, R245). The
remainder's sign is the spec's decision D11 (notes/assumptions/8.md). -/
def Obligations.DivideGivesQuotientAndRemainder : Prop :=
  ∀ (s : State) (d : RegCode),
    (∀ (src : Src 16) (v : Word) (x : Long), pairCode d = true → src ≠ .reg d → src ≠ .reg (d + 1) →
      s.srcWord src = .ok v → x = s.reg d ++ s.reg (d + 1) →
      (∀ q r, divideInt 16 x.toInt v.toInt = .fits q r → Completes (.div d src) s
        (LongRegister d (BitVec.ofInt 16 r ++ BitVec.ofInt 16 q)
          { c := false, z := decide (q = 0), s := decide (q < 0), v := false } s)) ∧
      (∀ q r, divideInt 16 x.toInt v.toInt = .wide q r → Completes (.div d src) s
        (LongRegister d (BitVec.ofInt 16 r ++ BitVec.ofInt 16 q)
          { c := true, z := false, s := decide (q < 0), v := true } s)) ∧
      (divideInt 16 x.toInt v.toInt = .byZero → Completes (.div d src) s
        (LongRegister d x { c := false, z := true, s := false, v := true } s)) ∧
      (divideInt 16 x.toInt v.toInt = .tooLarge → ∃ free : Long, Completes (.div d src) s
        (LongRegister d free { c := false, z := false, s := false, v := true } s))) ∧
    (∀ (src : Src 32) (v : Long) (x : Quad), quadCode d = true → src ≠ .reg d → src ≠ .reg (d + 2) →
      s.srcLong src = .ok v → x = s.reg d ++ s.reg (d + 1) ++ (s.reg (d + 2) ++ s.reg (d + 3)) →
      (∀ q r, divideInt 32 x.toInt v.toInt = .fits q r → Completes (.divl d src) s
        (QuadRegister d (BitVec.ofInt 32 r ++ BitVec.ofInt 32 q)
          { c := false, z := decide (q = 0), s := decide (q < 0), v := false } s)) ∧
      (∀ q r, divideInt 32 x.toInt v.toInt = .wide q r → Completes (.divl d src) s
        (QuadRegister d (BitVec.ofInt 32 r ++ BitVec.ofInt 32 q)
          { c := true, z := false, s := decide (q < 0), v := true } s)) ∧
      (divideInt 32 x.toInt v.toInt = .byZero → Completes (.divl d src) s
        (QuadRegister d x { c := false, z := true, s := false, v := true } s)) ∧
      (divideInt 32 x.toInt v.toInt = .tooLarge → ∃ free : Quad, Completes (.divl d src) s
        (QuadRegister d free { c := false, z := false, s := false, v := true } s)))

/-- EXTSB, EXTS and EXTSL extend the sign of the lower half over the whole register, pair or quadruple, and write no flag
(40_arithmetic.md R230 to R232). -/
def Obligations.SignExtensionFillsUpperHalf : Prop :=
  ∀ (s : State) (d : RegCode),
    Completes (.extsb d) s (WordRegister d (((s.reg d).extractLsb' 0 8).signExtend 16) {} s) ∧
    (pairCode d = true → Completes (.exts d) s (LongRegister d ((s.reg (d + 1)).signExtend 32) {} s)) ∧
    (quadCode d = true →
      Completes (.extsl d) s (QuadRegister d ((s.reg (d + 2) ++ s.reg (d + 3)).signExtend 64) {} s))

/-- DAB always completes: the byte becomes some byte and C some bit, free where the table has no row; Z and S are those of
the new byte, and everything else stays. After an addition or a subtraction of two bytes that hold two decimal digits
each, with a carry or borrow in, the byte holds the two lower digits of the decimal sum or difference and C is the
decimal carry or borrow (40_arithmetic.md R220). The free values are the spec's decision D13 (notes/assumptions/7.md), and
that D selects between the two halves of the table is its own derivation (notes/assumptions/25.md). -/
def Obligations.DecimalAdjust : Prop :=
  (∀ (s : State) (d : RegCode), ∃ (r : Byte) (c : Bool),
    Completes (.dab d) s (ByteRegister d r { c := c, z := r == 0, s := r.msb } s)) ∧
  (∀ (s : State) (d : RegCode) (x1 x0 y1 y0 : Nat) (cin : Bool), x1 ≤ 9 → x0 ≤ 9 → y1 ≤ 9 → y0 ≤ 9 →
    ∀ (x y : Byte), x = BitVec.ofNat 8 (16 * x1 + x0) → y = BitVec.ofNat 8 (16 * y1 + y0) →
    ∀ (a : Alu 8) (total : Int) (r : Byte), r = BitVec.ofInt 8 (16 * (total % 100 / 10) + total % 10) →
      s.byteReg d = a.value → s.carry = a.c → s.halfCarry = a.h →
      (a = addWith x y cin → s.decimal = false →
        total = (10 * x1 + x0 : Int) + (10 * y1 + y0) + (cin.toNat : Int) →
        Completes (.dab d) s (ByteRegister d r { c := decide (100 ≤ total), z := r == 0, s := r.msb } s)) ∧
      (a = subWith x y cin → s.decimal = true →
        total = (10 * x1 + x0 : Int) - (10 * y1 + y0) - (cin.toNat : Int) →
        Completes (.dab d) s (ByteRegister d r { c := decide (total < 0), z := r == 0, s := r.msb } s)))

/-! Control transfer. -/

/-- CALL, CALR push the address of the next instruction and go to their target, taken before the push; RET pops the pc
when its condition holds and does nothing when it does not (42_control_transfer.md R321, R323, R328). That CALL takes its
target before it pushes is the spec's decision D31 (R322, notes/assumptions/18.md). -/
def Obligations.CallsAndReturns : Prop :=
  ∀ (s : State), evenAddress (s.reg 15) = true →
    (∀ m : Mem, Completes (.call m) s (Pushed 15 s.pc { s with pc := (s.memLoc m).2 })) ∧
    (∀ disp : BitVec 12,
      Completes (.calr disp) s (Pushed 15 s.pc { s with pc := s.pc - 2 * disp.signExtend 16 })) ∧
    (∀ cc : Cond,
      (s.cond cc = true → Completes (.ret cc) s fun t =>
        t.reg 15 = s.reg 15 + 2 ∧ OnlyChanged [15] [] {} { s with pc := s.wordAt .stack (s.reg 15) } t) ∧
      (s.cond cc = false → exec (.ret cc) s = .next s))

/-- JP and JR go to their target when the condition holds and else to the next instruction; DJNZ and DBJNZ decrement their
register and jump back by twice the displacement unless it became zero (42_control_transfer.md R324 to R327). -/
def Obligations.JumpsAndLoops : Prop :=
  ∀ (s : State),
    (∀ (cc : Cond) (m : Mem),
      exec (.jp cc m) s = .next { s with pc := if s.cond cc then (s.memLoc m).2 else s.pc }) ∧
    (∀ (cc : Cond) (disp : BitVec 8),
      exec (.jr cc disp) s = .next { s with pc := if s.cond cc then s.pc + 2 * disp.signExtend 16 else s.pc }) ∧
    (∀ (r : RegCode) (disp : BitVec 7),
      Completes (.djnz r disp) s (WordRegister r (s.reg r - 1) {}
        { s with pc := if s.reg r = 1 then s.pc else s.pc - 2 * disp.zeroExtend 16 }) ∧
      Completes (.dbjnz r disp) s (ByteRegister r (s.byteReg r - 1) {}
        { s with pc := if s.byteReg r = 1 then s.pc else s.pc - 2 * disp.zeroExtend 16 }))

/-! Load, store, exchange and stack. -/

/-- The loads into registers: the destination holds the operand, no flag and nothing else changes (43_load_store.md R360 to
R362, R366 to R368, R380, R391, R392, R395 to R397); which operand it is, RegistersAndOperands says. That LDAR adds to the
pc after the instruction is the spec's own derivation (30_encoding.md R135, notes/assumptions/25.md). -/
def Obligations.LoadsFillRegisters : Prop :=
  ∀ (s : State) (d : RegCode),
    (∀ (src : LdSrc 16) (v : Word), s.ldSrcWord src = .ok v → Completes (.ld d src) s (WordRegister d v {} s)) ∧
    (∀ (src : LdSrc 8) (v : Byte), s.ldSrcByte src = .ok v → Completes (.ldb d src) s (ByteRegister d v {} s)) ∧
    (∀ (src : LdSrc 32) (v : Long), pairCode d = true → s.ldSrcLong src = .ok v →
      Completes (.ldl d src) s (LongRegister d v {} s)) ∧
    (∀ v : Byte, Completes (.ldbShort d v) s (ByteRegister d v {} s)) ∧
    (∀ v : Nibble, Completes (.ldk d v) s (WordRegister d (v.zeroExtend 16) {} s)) ∧
    (∀ src : LdaSrc, Completes (.lda d src) s (WordRegister d
      (match src with
        | .da a => a
        | .x a r => a + s.reg r
        | .ba r disp => s.reg r + disp
        | .bx r x => s.reg r + s.reg x) {} s)) ∧
    (∀ disp : Word,
      Completes (.ldar d disp) s (WordRegister d (s.pc + disp) {} s) ∧
      Completes (.ldrb d disp) s (ByteRegister d (s.readByte .program (s.pc + disp)) {} s) ∧
      (evenAddress (s.pc + disp) = true →
        Completes (.ldr d disp) s (WordRegister d (s.wordAt .program (s.pc + disp)) {} s)) ∧
      (evenAddress (s.pc + disp) = true → pairCode d = true →
        Completes (.ldrl d disp) s (LongRegister d
          (s.wordAt .program (s.pc + disp) ++ s.wordAt .program (s.pc + disp + 2)) {} s)))

/-- The stores: the bytes at the destination, and no others, hold the register or the data, high byte first; no register
and no flag changes (43_load_store.md R363 to R365, R369, R370, R395 to R397); which address it is, RegistersAndOperands
says. -/
def Obligations.StoresFillMemory : Prop :=
  ∀ (s : State) (r : RegCode),
    (∀ dst : LdDst,
      Completes (.ldbStore dst r) s (ByteStored (s.ldDstLoc dst) (s.byteReg r) {} s) ∧
      (evenAddress (s.ldDstLoc dst).2 = true →
        Completes (.ldStore dst r) s (WordStored (s.ldDstLoc dst) (s.reg r) {} s) ∧
        (pairCode r = true →
          Completes (.ldlStore dst r) s (LongStored (s.ldDstLoc dst) (s.reg r ++ s.reg (r + 1)) {} s)))) ∧
    (∀ (m : Mem) (v : Word), evenAddress (s.memLoc m).2 = true →
      Completes (.ldImm m v) s (WordStored (s.memLoc m) v {} s)) ∧
    (∀ (m : Mem) (v : Byte), Completes (.ldbImm m v) s (ByteStored (s.memLoc m) v {} s)) ∧
    (∀ disp : Word,
      Completes (.ldrbStore disp r) s (ByteStored (.program, s.pc + disp) (s.byteReg r) {} s) ∧
      (evenAddress (s.pc + disp) = true →
        Completes (.ldrStore disp r) s (WordStored (.program, s.pc + disp) (s.reg r) {} s) ∧
        (pairCode r = true →
          Completes (.ldrlStore disp r) s (LongStored (.program, s.pc + disp) (s.reg r ++ s.reg (r + 1)) {} s))))

/-- EX and EXB exchange a register with a register or with memory (43_load_store.md R353, R354). -/
def Obligations.ExchangesSwap : Prop :=
  ∀ (s : State) (d : RegCode),
    (∀ r : RegCode, Completes (.ex d (.reg r)) s fun t =>
      t.reg d = s.reg r ∧ t.reg r = s.reg d ∧ OnlyChanged [d, r] [] {} s t) ∧
    (∀ m : Mem, evenAddress (s.memLoc m).2 = true → Completes (.ex d (.mem m)) s fun t =>
      t.reg d = s.wordAt (s.memLoc m).1 (s.memLoc m).2 ∧ t.wordAt (s.memLoc m).1 (s.memLoc m).2 = s.reg d ∧
        OnlyChanged [d] [(s.memLoc m).2, (s.memLoc m).2 + 1] {} s t) ∧
    (∀ r : RegCode, Completes (.exb d (.reg r)) s fun t =>
      t.byteReg d = s.byteReg r ∧ t.byteReg r = s.byteReg d ∧
        (∀ e, e ≠ d → e ≠ r → t.byteReg e = s.byteReg e) ∧ OnlyChanged [byteHome d, byteHome r] [] {} s t) ∧
    (∀ m : Mem, Completes (.exb d (.mem m)) s fun t =>
      t.byteReg d = s.readByte (s.memLoc m).1 (s.memLoc m).2 ∧
        t.readByte (s.memLoc m).1 (s.memLoc m).2 = s.byteReg d ∧ (∀ e, e ≠ d → t.byteReg e = s.byteReg e) ∧
        OnlyChanged [byteHome d] [(s.memLoc m).2] {} s t)

/-- LDM moves nnnn + 1 words between consecutive memory words and consecutive registers, R0 following R15, the address
fixed at the start even if its register is loaded (43_load_store.md R393, R394; the last is the spec's decision D31 by way
of R350, notes/assumptions/18.md). -/
def Obligations.LoadMultipleMovesConsecutive : Prop :=
  ∀ (s : State) (r : RegCode) (m : Mem) (n : Nibble), evenAddress (s.memLoc m).2 = true →
    (Completes (.ldm r m n) s fun t =>
      (∀ k ≤ n.toNat, t.reg (r + BitVec.ofNat 4 k) =
        s.wordAt (s.memLoc m).1 ((s.memLoc m).2 + BitVec.ofNat 16 (2 * k))) ∧
      OnlyChanged ((List.range (n.toNat + 1)).map fun k => r + BitVec.ofNat 4 k) [] {} s t) ∧
    (Completes (.ldmStore m r n) s fun t =>
      (∀ k ≤ n.toNat, t.wordAt (s.memLoc m).1 ((s.memLoc m).2 + BitVec.ofNat 16 (2 * k)) =
        s.reg (r + BitVec.ofNat 4 k)) ∧
      OnlyChanged [] ((List.range (2 * (n.toNat + 1))).map fun k => (s.memLoc m).2 + BitVec.ofNat 16 k) {} s t)

/-- PUSH and PUSHL lower the stack register and store their operand where it then points, the operand read first
(43_load_store.md R402 to R404; the reading first is the spec's decision D31, notes/assumptions/18.md). -/
def Obligations.PushesStoreBelow : Prop :=
  ∀ (s : State) (sp : RegCode), evenAddress (s.reg sp) = true →
    (∀ (src : Dst) (v : Word), s.dstWord src = .ok v → Completes (.push sp src) s (Pushed sp v s)) ∧
    (∀ v : Word, Completes (.pushImm sp v) s (Pushed sp v s)) ∧
    (∀ (src : Dst) (v : Long), s.dstLong src = .ok v → Completes (.pushl sp src) s fun t =>
      t.reg sp = s.reg sp - 4 ∧ t.wordAt (dspace sp) (s.reg sp - 4) = v.extractLsb' 16 16 ∧
        t.wordAt (dspace sp) (s.reg sp - 2) = v.extractLsb' 0 16 ∧
        OnlyChanged [sp] [s.reg sp - 4, s.reg sp - 3, s.reg sp - 2, s.reg sp - 1] {} s t)

/-- POP and POPL move the words at the stack register to a register, a pair or memory and raise the stack register past
them; a memory destination is addressed with the register before it rises (43_load_store.md R400, R401; the spec's
decision D31, notes/assumptions/18.md). That POPL reads both words before it writes and releases four bytes is the
spec's own derivation (R401, notes/assumptions/25.md). -/
def Obligations.PopsLoadAndRelease : Prop :=
  ∀ (s : State) (sp : RegCode), evenAddress (s.reg sp) = true →
    (∀ d : RegCode, d ≠ sp → Completes (.pop (.reg d) sp) s fun t =>
      t.reg d = s.wordAt (dspace sp) (s.reg sp) ∧ t.reg sp = s.reg sp + 2 ∧ OnlyChanged [d, sp] [] {} s t) ∧
    (∀ m : Mem, evenAddress (s.memLoc m).2 = true → Completes (.pop (.mem m) sp) s fun t =>
      t.wordAt (s.memLoc m).1 (s.memLoc m).2 = s.wordAt (dspace sp) (s.reg sp) ∧ t.reg sp = s.reg sp + 2 ∧
        OnlyChanged [sp] [(s.memLoc m).2, (s.memLoc m).2 + 1] {} s t) ∧
    (∀ d : RegCode, pairCode d = true → sp ≠ d → sp ≠ d + 1 → Completes (.popl (.reg d) sp) s fun t =>
      t.reg d = s.wordAt (dspace sp) (s.reg sp) ∧ t.reg (d + 1) = s.wordAt (dspace sp) (s.reg sp + 2) ∧
        t.reg sp = s.reg sp + 4 ∧ OnlyChanged [d, d + 1, sp] [] {} s t) ∧
    (∀ m : Mem, evenAddress (s.memLoc m).2 = true → Completes (.popl (.mem m) sp) s fun t =>
      t.wordAt (s.memLoc m).1 (s.memLoc m).2 = s.wordAt (dspace sp) (s.reg sp) ∧
        t.wordAt (s.memLoc m).1 ((s.memLoc m).2 + 2) = s.wordAt (dspace sp) (s.reg sp + 2) ∧
        t.reg sp = s.reg sp + 4 ∧
        OnlyChanged [sp] [(s.memLoc m).2, (s.memLoc m).2 + 1, (s.memLoc m).2 + 2, (s.memLoc m).2 + 3] {} s t)

/-! Rotate and shift. -/

/-- The rotates by one or two, on words and bytes, with the flags of the result (44_rotate_shift.md R421 to R425, R427 to
R430), and the digit rotates RLDB and RRDB (R426, R431). What V is after a rotate is the spec's decision D12
(notes/assumptions/19.md). -/
def Obligations.RotatesWriteRegisterAndFlags : Prop :=
  ∀ (s : State) (d : RegCode),
    (∀ two : Bool,
      (∀ e ∈ [(Instr.rl d two, ShiftKind.rl), (.rlc d two, .rlc), (.rr d two, .rr), (.rrc d two, .rrc)],
        ∀ z : Shifting 16, z = rotateBy e.2 two (s.reg d) s.carry →
          Completes e.1 s (WordRegister d z.x { c := z.c, z := z.x == 0, s := z.x.msb, v := z.v } s)) ∧
      (∀ e ∈ [(Instr.rlb d two, ShiftKind.rl), (.rlcb d two, .rlc), (.rrb d two, .rr), (.rrcb d two, .rrc)],
        ∀ z : Shifting 8, z = rotateBy e.2 two (s.byteReg d) s.carry →
          Completes e.1 s (ByteRegister d z.x { c := z.c, z := z.x == 0, s := z.x.msb, v := z.v } s))) ∧
    (∀ (r : RegCode) (a1 a0 b1 b0 : Nibble), d ≠ r → s.byteReg d = a1 ++ a0 → s.byteReg r = b1 ++ b0 →
      (Completes (.rldb d r) s fun t =>
        t.byteReg d = a1 ++ b1 ∧ t.byteReg r = b0 ++ a0 ∧ (∀ e, e ≠ d → e ≠ r → t.byteReg e = s.byteReg e) ∧
          OnlyChanged [byteHome d, byteHome r] [] { z := a1 ++ b1 == 0#8 } s t) ∧
      (Completes (.rrdb d r) s fun t =>
        t.byteReg d = a1 ++ b0 ∧ t.byteReg r = a0 ++ b1 ∧ (∀ e, e ≠ d → e ≠ r → t.byteReg e = s.byteReg e) ∧
          OnlyChanged [byteHome d, byteHome r] [] { z := a1 ++ b0 == 0#8 } s t))

/-- The shifts, static and dynamic, of bytes, words and pairs: the value and the flags of the shift by the signed count,
which stands in the instruction or in a word register; with a count of zero C is cleared by the dynamic byte and word
forms only (44_rotate_shift.md R435 to R454; V by the spec's decision D12, notes/assumptions/19.md). -/
def Obligations.ShiftsWriteRegisterAndFlags : Prop :=
  ∀ (s : State) (d : RegCode),
    (∀ r : RegCode,
      (∀ e ∈ [(Instr.sda d r, true), (.sdl d r, false)], ∀ z, z = shiftResult e.2 (s.reg d) (s.reg r).toInt .cleared →
        Completes e.1 s (WordRegister d z.1 z.2 s)) ∧
      (∀ e ∈ [(Instr.sdab d r, true), (.sdlb d r, false)],
        ∀ z, z = shiftResult e.2 (s.byteReg d) (s.reg r).toInt .cleared →
          Completes e.1 s (ByteRegister d z.1 z.2 s)) ∧
      (pairCode d = true → ∀ e ∈ [(Instr.sdal d r, true), (.sdll d r, false)],
        ∀ z, z = shiftResult e.2 (s.reg d ++ s.reg (d + 1)) (s.reg r).toInt .unaffected →
          Completes e.1 s (LongRegister d z.1 z.2 s))) ∧
    (∀ k : Word,
      (∀ e ∈ [(Instr.sla d k, true), (.sra d k, true), (.sll d k, false), (.srl d k, false)],
        ∀ z, z = shiftResult e.2 (s.reg d) k.toInt .unaffected → Completes e.1 s (WordRegister d z.1 z.2 s)) ∧
      (pairCode d = true →
        ∀ e ∈ [(Instr.slal d k, true), (.sral d k, true), (.slll d k, false), (.srll d k, false)],
          ∀ z, z = shiftResult e.2 (s.reg d ++ s.reg (d + 1)) k.toInt .unaffected →
            Completes e.1 s (LongRegister d z.1 z.2 s))) ∧
    (∀ k : Byte, ∀ e ∈ [(Instr.slab d k, true), (.srab d k, true), (.sllb d k, false), (.srlb d k, false)],
      ∀ z, z = shiftResult e.2 (s.byteReg d) k.toInt .unaffected → Completes e.1 s (ByteRegister d z.1 z.2 s))

/-! Block and string instructions: one iteration a step. -/

/-- One iteration of the block compares (45_block_string.md R463 to R478, R495): the compare with a register or between two
strings, C and S of the difference, Z whether the condition matches it, V whether the count became zero; the pointers
move by the element's size, up or down; a repeating form runs again until Z or V is set. Flags written in each iteration
are the spec's decision D25 (notes/assumptions/13.md). -/
def Obligations.BlockCompareIterates : Prop :=
  ∀ (s : State) (d p r : RegCode) (cc : Cond), p ≠ 0 →
    (d ≠ p → d ≠ r → p ≠ r → evenAddress (s.reg p) = true →
      ∀ x, x = subWith (s.reg d) (s.wordAt (dspace p) (s.reg p)) false →
      ∀ hit, hit = condHolds cc x.c x.z x.s x.v →
        ∀ e ∈ [(Instr.cpd d p r cc, s.reg p - 2, false), (.cpdr d p r cc, s.reg p - 2, true),
            (.cpi d p r cc, s.reg p + 2, false), (.cpir d p r cc, s.reg p + 2, true)],
          Completes e.1 s (Iterated r [(p, e.2.1)] [] { c := x.c, z := hit, s := x.s, v := s.reg r == 1 }
            (e.2.2 && !hit && s.reg r != 1) s)) ∧
    (byteHome d ≠ p → byteHome d ≠ r → p ≠ r →
      ∀ x, x = subWith (s.byteReg d) (s.readByte (dspace p) (s.reg p)) false →
      ∀ hit, hit = condHolds cc x.c x.z x.s x.v →
        ∀ e ∈ [(Instr.cpdb d p r cc, s.reg p - 1, false), (.cpdrb d p r cc, s.reg p - 1, true),
            (.cpib d p r cc, s.reg p + 1, false), (.cpirb d p r cc, s.reg p + 1, true)],
          Completes e.1 s (Iterated r [(p, e.2.1)] [] { c := x.c, z := hit, s := x.s, v := s.reg r == 1 }
            (e.2.2 && !hit && s.reg r != 1) s)) ∧
    (d ≠ 0 → d ≠ p → d ≠ r → p ≠ r → evenAddress (s.reg p) = true → evenAddress (s.reg d) = true →
      ∀ x, x = subWith (s.wordAt (dspace d) (s.reg d)) (s.wordAt (dspace p) (s.reg p)) false →
      ∀ hit, hit = condHolds cc x.c x.z x.s x.v →
        ∀ e ∈ [(Instr.cpsd d p r cc, s.reg p - 2, s.reg d - 2, false),
            (.cpsdr d p r cc, s.reg p - 2, s.reg d - 2, true), (.cpsi d p r cc, s.reg p + 2, s.reg d + 2, false),
            (.cpsir d p r cc, s.reg p + 2, s.reg d + 2, true)],
          Completes e.1 s (Iterated r [(p, e.2.1), (d, e.2.2.1)] []
            { c := x.c, z := hit, s := x.s, v := s.reg r == 1 } (e.2.2.2 && !hit && s.reg r != 1) s)) ∧
    (d ≠ 0 → d ≠ p → d ≠ r → p ≠ r →
      ∀ x, x = subWith (s.readByte (dspace d) (s.reg d)) (s.readByte (dspace p) (s.reg p)) false →
      ∀ hit, hit = condHolds cc x.c x.z x.s x.v →
        ∀ e ∈ [(Instr.cpsdb d p r cc, s.reg p - 1, s.reg d - 1, false),
            (.cpsdrb d p r cc, s.reg p - 1, s.reg d - 1, true), (.cpsib d p r cc, s.reg p + 1, s.reg d + 1, false),
            (.cpsirb d p r cc, s.reg p + 1, s.reg d + 1, true)],
          Completes e.1 s (Iterated r [(p, e.2.1), (d, e.2.2.1)] []
            { c := x.c, z := hit, s := x.s, v := s.reg r == 1 } (e.2.2.2 && !hit && s.reg r != 1) s))

/-- One iteration of the block loads (45_block_string.md R480 to R488): the element at Rs goes to where Rd points, both
pointers move, Z and V say whether the count became zero, and a repeating form runs again until it did. Flags written in
each iteration, with the pc left on the instruction, are the spec's decision D25 (notes/assumptions/13.md). -/
def Obligations.BlockLoadIterates : Prop :=
  ∀ (s : State) (d p r : RegCode), p ≠ 0 → d ≠ 0 → d ≠ p → d ≠ r → p ≠ r →
    (evenAddress (s.reg p) = true → evenAddress (s.reg d) = true →
      ∀ e ∈ [(Instr.ldd d p r, s.reg p - 2, s.reg d - 2, false), (.lddr d p r, s.reg p - 2, s.reg d - 2, true),
          (.ldi d p r, s.reg p + 2, s.reg d + 2, false), (.ldir d p r, s.reg p + 2, s.reg d + 2, true)],
        Completes e.1 s fun t =>
          t.wordAt (dspace d) (s.reg d) = s.wordAt (dspace p) (s.reg p) ∧
          Iterated r [(p, e.2.1), (d, e.2.2.1)] [s.reg d, s.reg d + 1] { z := s.reg r == 1, v := s.reg r == 1 }
            (e.2.2.2 && s.reg r != 1) s t) ∧
    (∀ e ∈ [(Instr.lddb d p r, s.reg p - 1, s.reg d - 1, false), (.lddrb d p r, s.reg p - 1, s.reg d - 1, true),
        (.ldib d p r, s.reg p + 1, s.reg d + 1, false), (.ldirb d p r, s.reg p + 1, s.reg d + 1, true)],
      Completes e.1 s fun t =>
        t.readByte (dspace d) (s.reg d) = s.readByte (dspace p) (s.reg p) ∧
        Iterated r [(p, e.2.1), (d, e.2.2.1)] [s.reg d] { z := s.reg r == 1, v := s.reg r == 1 }
          (e.2.2.2 && s.reg r != 1) s t)

/-- One iteration of the translates (45_block_string.md R489 to R493): the byte at Rd becomes the entry it selects in the
table at Rs, Rd moves, Rs stays, V says whether the count became zero. V written in each iteration is the spec's decision
D25 (notes/assumptions/13.md), and that TRIB moves Rd is its resolution of conflict C6 (notes/assumptions/25.md). -/
def Obligations.TranslateIterates : Prop :=
  ∀ (s : State) (d p r : RegCode), p ≠ 0 → d ≠ 0 → d ≠ p → d ≠ r → p ≠ r →
    ∀ e ∈ [(Instr.trdb d p r, s.reg d - 1, false), (.trdrb d p r, s.reg d - 1, true),
        (.trib d p r, s.reg d + 1, false), (.trirb d p r, s.reg d + 1, true)],
      Completes e.1 s fun t =>
        t.readByte (dspace d) (s.reg d) =
          s.readByte (dspace p) (s.reg p + (s.readByte (dspace d) (s.reg d)).zeroExtend 16) ∧
        Iterated r [(d, e.2.1)] [s.reg d] { v := s.reg r == 1 } (e.2.2 && s.reg r != 1) s t

/-- One iteration of translate and test (45_block_string.md R500 to R504): RH1 becomes the table entry, memory stays, Z
says whether the entry is zero and V whether the count became zero. A repeating form ends when the count became zero or
at an entry that stops it; which do, the zero entry or the others, is open in the spec (D14), and here the one parameter
Config.trtStopOnZero of the machine, of which nothing is known (notes/assumptions/9.md). Flags written in each iteration
are the spec's decision D25 (notes/assumptions/13.md). -/
def Obligations.TranslateTestIterates : Prop :=
  ∀ (s : State) (p1 p2 r : RegCode), p1 ≠ 0 → p2 ≠ 0 → p1 ≠ p2 → p1 ≠ r → p2 ≠ r → p1 ≠ 1 → p2 ≠ 1 → r ≠ 1 →
    ∀ v, v = s.readByte (dspace p2) (s.reg p2 + (s.readByte (dspace p1) (s.reg p1)).zeroExtend 16) →
      ∀ stop : Bool, stop = (if Config.trtStopOnZero then v == 0 else v != 0) →
        ∀ e ∈ [(Instr.trtdb p1 p2 r, s.reg p1 - 1, false), (.trtdrb p1 p2 r, s.reg p1 - 1, true),
            (.trtib p1 p2 r, s.reg p1 + 1, false), (.trtirb p1 p2 r, s.reg p1 + 1, true)],
          Completes e.1 s (Iterated r [(p1, e.2.1), (1, v ++ (s.reg 1).extractLsb' 0 8)] []
            { z := v == 0, v := s.reg r == 1 } (e.2.2 && !stop && s.reg r != 1) s)

/-! Input and output, in System mode. -/

/-- IN, SIN and their byte forms load a register with what the environment supplies at the port, without a flag; OUT, SOUT
and their byte forms append one output event (46_io.md R522 to R529, 20_memory.md R68). What the port gives is a free
value (D8, notes/assumptions/5.md). -/
def Obligations.SingleInputAndOutput : Prop :=
  ∀ (s : State) (r : RegCode), s.sys = true →
    (∀ p : Port, ∀ a, a = (match p with
        | .ir q => s.reg q
        | .da v => v) →
      Completes (.inp r p) s (WordRegister r (Config.ioRead s.clock s.events .std a 2) {} s) ∧
      Completes (.inb r p) s
        (ByteRegister r ((Config.ioRead s.clock s.events .std a 1).extractLsb' 0 8) {} s) ∧
      exec (.out p r) s = .next { s with events := s.events ++ [.ioWrite .std a 2 (s.reg r)] } ∧
      exec (.outb p r) s = .next { s with events := s.events ++ [.ioWrite .std a 1 (0x00#8 ++ s.byteReg r)] }) ∧
    (∀ a : Word,
      Completes (.sin r a) s (WordRegister r (Config.ioRead s.clock s.events .special a 2) {} s) ∧
      Completes (.sinb r a) s
        (ByteRegister r ((Config.ioRead s.clock s.events .special a 1).extractLsb' 0 8) {} s) ∧
      exec (.sout a r) s = .next { s with events := s.events ++ [.ioWrite .special a 2 (s.reg r)] } ∧
      exec (.soutb a r) s = .next { s with events := s.events ++ [.ioWrite .special a 1 (0x00#8 ++ s.byteReg r)] })

/-- One iteration of the block inputs (46_io.md R530 to R546): what the environment supplies at the port in Rs goes to
memory where Rd points, Rd moves, Rs stays, V says whether the count became zero. V written in each iteration is the
spec's decision D25 (notes/assumptions/13.md), and what the port gives is a free value (D8, notes/assumptions/5.md). -/
def Obligations.BlockInputIterates : Prop :=
  ∀ (s : State) (d p r : RegCode), s.sys = true → p ≠ 0 → d ≠ 0 → d ≠ p → d ≠ r → p ≠ r →
    (evenAddress (s.reg d) = true →
      ∀ e ∈ [(Instr.ind d p r, IoSpace.std, s.reg d - 2, false), (.indr d p r, .std, s.reg d - 2, true),
          (.ini d p r, .std, s.reg d + 2, false), (.inir d p r, .std, s.reg d + 2, true),
          (.sind d p r, .special, s.reg d - 2, false), (.sindr d p r, .special, s.reg d - 2, true),
          (.sini d p r, .special, s.reg d + 2, false), (.sinir d p r, .special, s.reg d + 2, true)],
        Completes e.1 s fun t =>
          t.wordAt (dspace d) (s.reg d) = Config.ioRead s.clock s.events e.2.1 (s.reg p) 2 ∧
          Iterated r [(d, e.2.2.1)] [s.reg d, s.reg d + 1] { v := s.reg r == 1 } (e.2.2.2 && s.reg r != 1) s t) ∧
    (∀ e ∈ [(Instr.indb d p r, IoSpace.std, s.reg d - 1, false), (.indrb d p r, .std, s.reg d - 1, true),
        (.inib d p r, .std, s.reg d + 1, false), (.inirb d p r, .std, s.reg d + 1, true),
        (.sindb d p r, .special, s.reg d - 1, false), (.sindrb d p r, .special, s.reg d - 1, true),
        (.sinib d p r, .special, s.reg d + 1, false), (.sinirb d p r, .special, s.reg d + 1, true)],
      Completes e.1 s fun t =>
        t.readByte (dspace d) (s.reg d) = (Config.ioRead s.clock s.events e.2.1 (s.reg p) 1).extractLsb' 0 8 ∧
        Iterated r [(d, e.2.2.1)] [s.reg d] { v := s.reg r == 1 } (e.2.2.2 && s.reg r != 1) s t)

/-- One iteration of the block outputs (46_io.md R550 to R566): the element at Rs goes to the port in Rd as one output event,
Rs moves, Rd stays, V says whether the count became zero. V written in each iteration is the spec's decision D25
(notes/assumptions/13.md). -/
def Obligations.BlockOutputIterates : Prop :=
  ∀ (s : State) (d p r : RegCode), s.sys = true → p ≠ 0 → d ≠ 0 → d ≠ p → d ≠ r → p ≠ r →
    (evenAddress (s.reg p) = true →
      ∀ e ∈ [(Instr.outd d p r, IoSpace.std, s.reg p - 2, false), (.otdr d p r, .std, s.reg p - 2, true),
          (.outi d p r, .std, s.reg p + 2, false), (.otir d p r, .std, s.reg p + 2, true),
          (.soutd d p r, .special, s.reg p - 2, false), (.sotdr d p r, .special, s.reg p - 2, true),
          (.souti d p r, .special, s.reg p + 2, false), (.sotir d p r, .special, s.reg p + 2, true)],
        Completes e.1 s (Iterated r [(p, e.2.2.1)] [] { v := s.reg r == 1 } (e.2.2.2 && s.reg r != 1)
          { s with events := s.events ++ [.ioWrite e.2.1 (s.reg d) 2 (s.wordAt (dspace p) (s.reg p))] })) ∧
    (∀ e ∈ [(Instr.outdb d p r, IoSpace.std, s.reg p - 1, false), (.otdrb d p r, .std, s.reg p - 1, true),
        (.outib d p r, .std, s.reg p + 1, false), (.otirb d p r, .std, s.reg p + 1, true),
        (.soutdb d p r, .special, s.reg p - 1, false), (.sotdrb d p r, .special, s.reg p - 1, true),
        (.soutib d p r, .special, s.reg p + 1, false), (.sotirb d p r, .special, s.reg p + 1, true)],
      Completes e.1 s (Iterated r [(p, e.2.2.1)] [] { v := s.reg r == 1 } (e.2.2.2 && s.reg r != 1)
        { s with
          events := s.events ++ [.ioWrite e.2.1 (s.reg d) 1 (0x00#8 ++ s.readByte (dspace p) (s.reg p))] }))

/-! CPU control, in System mode. -/

/-- DI and EI clear or set the enables whose field bit is 0, and LDCTL, LDCTLB and LDPS move the control registers, the FCW
under its mask and PSAP with a zero low byte; nothing else changes (47_system.md R571, R572, R580 to R585, R590). That EI
sets by OR is the spec's own derivation (R572, notes/assumptions/25.md), and REFRESH stored and read whole its decision
D26 (R581, notes/assumptions/23.md). -/
def Obligations.ControlRegisterMoves : Prop :=
  ∀ s : State, s.sys = true →
    (∀ vn : BitVec 2,
      (Completes (.di vn) s fun t => OnlyStatus s t ∧ t.vie = (s.vie && vn.getLsbD 1) ∧
        t.nvie = (s.nvie && vn.getLsbD 0) ∧ t.fcw &&& 0xE7FF#16 = s.fcw &&& 0xE7FF#16) ∧
      (Completes (.ei vn) s fun t => OnlyStatus s t ∧ t.vie = (s.vie || !vn.getLsbD 1) ∧
        t.nvie = (s.nvie || !vn.getLsbD 0) ∧ t.fcw &&& 0xE7FF#16 = s.fcw &&& 0xE7FF#16)) ∧
    (∀ r : RegCode,
      exec (.ldctlTo .fcw r) s = .next { s with fcw := (s.reg r &&& 0x18FC#16) ||| 0x4000#16 } ∧
      exec (.ldctlTo .refresh r) s = .next { s with refresh := s.reg r } ∧
      exec (.ldctlTo .psap r) s = .next { s with psap := s.reg r &&& 0xFF00#16 } ∧
      exec (.ldctlTo .nsp r) s = .next { s with nsp := s.reg r } ∧
      Completes (.ldctlFrom r .fcw) s (WordRegister r s.fcw {} s) ∧
      Completes (.ldctlFrom r .refresh) s (WordRegister r s.refresh {} s) ∧
      Completes (.ldctlFrom r .psap) s (WordRegister r s.psap {} s) ∧
      Completes (.ldctlFrom r .nsp) s (WordRegister r s.nsp {} s) ∧
      exec (.ldctlbTo r) s =
        .next { s with fcw := (s.fcw &&& 0xFF00#16) ||| (0x00#8 ++ (s.byteReg r &&& 0xFC#8)) } ∧
      Completes (.ldctlbFrom r) s (ByteRegister r (s.fcw.extractLsb' 0 8) {} s)) ∧
    (∀ m : Mem, evenAddress (s.memLoc m).2 = true →
      exec (.ldps m) s = .next { s with
        fcw := (s.wordAt (s.memLoc m).1 (s.memLoc m).2 &&& 0x18FC#16) ||| 0x4000#16
        pc := s.wordAt (s.memLoc m).1 ((s.memLoc m).2 + 2) })

/-- HALT sets the halted condition, NOP changes nothing, MSET and MRES drive MOB Low and High, MBIT copies the level of MIB
to S. MREQ: with MIB Low the request is not signalled, Z and S are cleared and MOB is High; else MOB goes Low, the
register counts down to zero, and a second look at MIB says whether the request is granted (MIB Low: Z and S set, MOB
stays Low) or not (Z set, S cleared, MOB High) (47_system.md R575, R597 to R600, R605). MREQ whole in one step, and an event
only when the level of MOB changes, are the spec's decision D22 (notes/assumptions/22.md), and the levels of MIB are free
values (notes/assumptions/5.md). -/
def Obligations.HaltNopAndMultiMicro : Prop :=
  (∀ s : State, s.sys = true →
    exec .halt s = .next { s with halted := true } ∧ exec .nop s = .next s ∧
    exec .mset s = .next { s with mo := false, events := if s.mo then s.events ++ [.mob false] else s.events } ∧
    exec .mres s = .next { s with mo := true, events := if s.mo then s.events else s.events ++ [.mob true] } ∧
    Completes .mbit s (OnlyChanged [] [] { s := Config.mibLevel s.clock s.events 0 } s)) ∧
  (∀ (s : State) (d : RegCode), s.sys = true →
    (Config.mibLevel s.clock s.events 0 = false → Completes (.mreq d) s (OnlyChanged [] [] { z := false, s := false }
      { s with mo := true, events := if s.mo then s.events else s.events ++ [.mob true] })) ∧
    (Config.mibLevel s.clock s.events 0 = true →
      ∀ low : List Event, low = (if s.mo then s.events ++ [.mob false] else s.events) →
        (Config.mibLevel s.clock low 1 = false → Completes (.mreq d) s
          (WordRegister d 0x0000#16 { z := true, s := true } { s with mo := false, events := low })) ∧
        (Config.mibLevel s.clock low 1 = true → Completes (.mreq d) s
          (WordRegister d 0x0000#16 { z := true, s := false } { s with mo := true, events := low ++ [.mob true] }))))

/-- NOP (47_system.md R605): the word 0x8D07 is NOP; a step at it moves the pc to the next word and does nothing else. With
another register field the word is refused, by the spec's decision D15 (30_encoding.md R142, notes/assumptions/12.md). -/
def Obligations.NopOnlyAdvances : Prop :=
  (∀ rest : List Word, decode (0x8D07#16 :: rest) = .ok (.nop, rest)) ∧
  (∀ (n : Nibble) (rest : List Word), n ≠ 0x0#4 →
    decode ((0x8D#8 ++ n ++ 0x7#4) :: rest) = .error .unassignedOpcode) ∧
  (∀ s : State, exec .nop s = .next s) ∧
  (∀ s : State, s.inputs = [] → s.nmip = false → s.halted = false → evenAddress s.pc = true →
    s.wordAt .program s.pc = 0x8D07#16 → step s = .next { s with clock := s.clock + 1, pc := s.pc + 2 })
end

