-- ==== Sys2Proof/Laws/State.lean ====
section
/-!
SUPPORT. Laws/State.lean: one lemma per field per update of the state, so that no later proof unfolds a record update. The
updates of the register file and of MOB, which look at the state, are at the end.
-/

namespace Sys2Proof.Machine

open Sys2Proof

/-! `setFlags`. -/

@[simp] theorem State.setFlags_regs (s : State) (f : FlagWrite) : (s.setFlags f).regs = s.regs := rfl
@[simp] theorem State.setFlags_pc (s : State) (f : FlagWrite) : (s.setFlags f).pc = s.pc := rfl
@[simp] theorem State.setFlags_fcw (s : State) (f : FlagWrite) : (s.setFlags f).fcw = f.apply s.fcw := rfl
@[simp] theorem State.setFlags_psap (s : State) (f : FlagWrite) : (s.setFlags f).psap = s.psap := rfl
@[simp] theorem State.setFlags_refresh (s : State) (f : FlagWrite) : (s.setFlags f).refresh = s.refresh := rfl
@[simp] theorem State.setFlags_nsp (s : State) (f : FlagWrite) : (s.setFlags f).nsp = s.nsp := rfl
@[simp] theorem State.setFlags_mo (s : State) (f : FlagWrite) : (s.setFlags f).mo = s.mo := rfl
@[simp] theorem State.setFlags_nmip (s : State) (f : FlagWrite) : (s.setFlags f).nmip = s.nmip := rfl
@[simp] theorem State.setFlags_halted (s : State) (f : FlagWrite) : (s.setFlags f).halted = s.halted := rfl
@[simp] theorem State.setFlags_mem (s : State) (f : FlagWrite) : (s.setFlags f).mem = s.mem := rfl
@[simp] theorem State.setFlags_inputs (s : State) (f : FlagWrite) : (s.setFlags f).inputs = s.inputs := rfl
@[simp] theorem State.setFlags_events (s : State) (f : FlagWrite) : (s.setFlags f).events = s.events := rfl
@[simp] theorem State.setFlags_clock (s : State) (f : FlagWrite) : (s.setFlags f).clock = s.clock := rfl

/-! `writeByte`. -/

@[simp] theorem State.writeByte_regs (s : State) (sp : Space) (a : Word) (v : Byte) : (s.writeByte sp a v).regs = s.regs := rfl
@[simp] theorem State.writeByte_pc (s : State) (sp : Space) (a : Word) (v : Byte) : (s.writeByte sp a v).pc = s.pc := rfl
@[simp] theorem State.writeByte_fcw (s : State) (sp : Space) (a : Word) (v : Byte) : (s.writeByte sp a v).fcw = s.fcw := rfl
@[simp] theorem State.writeByte_psap (s : State) (sp : Space) (a : Word) (v : Byte) : (s.writeByte sp a v).psap = s.psap := rfl
@[simp] theorem State.writeByte_refresh (s : State) (sp : Space) (a : Word) (v : Byte) : (s.writeByte sp a v).refresh = s.refresh := rfl
@[simp] theorem State.writeByte_nsp (s : State) (sp : Space) (a : Word) (v : Byte) : (s.writeByte sp a v).nsp = s.nsp := rfl
@[simp] theorem State.writeByte_mo (s : State) (sp : Space) (a : Word) (v : Byte) : (s.writeByte sp a v).mo = s.mo := rfl
@[simp] theorem State.writeByte_nmip (s : State) (sp : Space) (a : Word) (v : Byte) : (s.writeByte sp a v).nmip = s.nmip := rfl
@[simp] theorem State.writeByte_halted (s : State) (sp : Space) (a : Word) (v : Byte) : (s.writeByte sp a v).halted = s.halted := rfl
@[simp] theorem State.writeByte_mem (s : State) (sp : Space) (a : Word) (v : Byte) : (s.writeByte sp a v).mem = Memory.write s.mem (spaceMap sp a) v := rfl
@[simp] theorem State.writeByte_inputs (s : State) (sp : Space) (a : Word) (v : Byte) : (s.writeByte sp a v).inputs = s.inputs := rfl
@[simp] theorem State.writeByte_events (s : State) (sp : Space) (a : Word) (v : Byte) : (s.writeByte sp a v).events = s.events := rfl
@[simp] theorem State.writeByte_clock (s : State) (sp : Space) (a : Word) (v : Byte) : (s.writeByte sp a v).clock = s.clock := rfl

/-! `putWord`. -/

@[simp] theorem State.putWord_regs (s : State) (sp : Space) (a v : Word) : (s.putWord sp a v).regs = s.regs := rfl
@[simp] theorem State.putWord_pc (s : State) (sp : Space) (a v : Word) : (s.putWord sp a v).pc = s.pc := rfl
@[simp] theorem State.putWord_fcw (s : State) (sp : Space) (a v : Word) : (s.putWord sp a v).fcw = s.fcw := rfl
@[simp] theorem State.putWord_psap (s : State) (sp : Space) (a v : Word) : (s.putWord sp a v).psap = s.psap := rfl
@[simp] theorem State.putWord_refresh (s : State) (sp : Space) (a v : Word) : (s.putWord sp a v).refresh = s.refresh := rfl
@[simp] theorem State.putWord_nsp (s : State) (sp : Space) (a v : Word) : (s.putWord sp a v).nsp = s.nsp := rfl
@[simp] theorem State.putWord_mo (s : State) (sp : Space) (a v : Word) : (s.putWord sp a v).mo = s.mo := rfl
@[simp] theorem State.putWord_nmip (s : State) (sp : Space) (a v : Word) : (s.putWord sp a v).nmip = s.nmip := rfl
@[simp] theorem State.putWord_halted (s : State) (sp : Space) (a v : Word) : (s.putWord sp a v).halted = s.halted := rfl
@[simp] theorem State.putWord_inputs (s : State) (sp : Space) (a v : Word) : (s.putWord sp a v).inputs = s.inputs := rfl
@[simp] theorem State.putWord_events (s : State) (sp : Space) (a v : Word) : (s.putWord sp a v).events = s.events := rfl
@[simp] theorem State.putWord_clock (s : State) (sp : Space) (a v : Word) : (s.putWord sp a v).clock = s.clock := rfl

/-! `emit`. -/

@[simp] theorem State.emit_regs (s : State) (e : Event) : (s.emit e).regs = s.regs := rfl
@[simp] theorem State.emit_pc (s : State) (e : Event) : (s.emit e).pc = s.pc := rfl
@[simp] theorem State.emit_fcw (s : State) (e : Event) : (s.emit e).fcw = s.fcw := rfl
@[simp] theorem State.emit_psap (s : State) (e : Event) : (s.emit e).psap = s.psap := rfl
@[simp] theorem State.emit_refresh (s : State) (e : Event) : (s.emit e).refresh = s.refresh := rfl
@[simp] theorem State.emit_nsp (s : State) (e : Event) : (s.emit e).nsp = s.nsp := rfl
@[simp] theorem State.emit_mo (s : State) (e : Event) : (s.emit e).mo = s.mo := rfl
@[simp] theorem State.emit_nmip (s : State) (e : Event) : (s.emit e).nmip = s.nmip := rfl
@[simp] theorem State.emit_halted (s : State) (e : Event) : (s.emit e).halted = s.halted := rfl
@[simp] theorem State.emit_mem (s : State) (e : Event) : (s.emit e).mem = s.mem := rfl
@[simp] theorem State.emit_inputs (s : State) (e : Event) : (s.emit e).inputs = s.inputs := rfl
@[simp] theorem State.emit_events (s : State) (e : Event) : (s.emit e).events = s.events ++ [e] := rfl
@[simp] theorem State.emit_clock (s : State) (e : Event) : (s.emit e).clock = s.clock := rfl

/-! `ioWriteWord`. -/

@[simp] theorem State.ioWriteWord_regs (s : State) (space : IoSpace) (port v : Word) : (s.ioWriteWord space port v).regs = s.regs := rfl
@[simp] theorem State.ioWriteWord_pc (s : State) (space : IoSpace) (port v : Word) : (s.ioWriteWord space port v).pc = s.pc := rfl
@[simp] theorem State.ioWriteWord_fcw (s : State) (space : IoSpace) (port v : Word) : (s.ioWriteWord space port v).fcw = s.fcw := rfl
@[simp] theorem State.ioWriteWord_psap (s : State) (space : IoSpace) (port v : Word) : (s.ioWriteWord space port v).psap = s.psap := rfl
@[simp] theorem State.ioWriteWord_refresh (s : State) (space : IoSpace) (port v : Word) : (s.ioWriteWord space port v).refresh = s.refresh := rfl
@[simp] theorem State.ioWriteWord_nsp (s : State) (space : IoSpace) (port v : Word) : (s.ioWriteWord space port v).nsp = s.nsp := rfl
@[simp] theorem State.ioWriteWord_mo (s : State) (space : IoSpace) (port v : Word) : (s.ioWriteWord space port v).mo = s.mo := rfl
@[simp] theorem State.ioWriteWord_nmip (s : State) (space : IoSpace) (port v : Word) : (s.ioWriteWord space port v).nmip = s.nmip := rfl
@[simp] theorem State.ioWriteWord_halted (s : State) (space : IoSpace) (port v : Word) : (s.ioWriteWord space port v).halted = s.halted := rfl
@[simp] theorem State.ioWriteWord_mem (s : State) (space : IoSpace) (port v : Word) : (s.ioWriteWord space port v).mem = s.mem := rfl
@[simp] theorem State.ioWriteWord_inputs (s : State) (space : IoSpace) (port v : Word) : (s.ioWriteWord space port v).inputs = s.inputs := rfl
@[simp] theorem State.ioWriteWord_events (s : State) (space : IoSpace) (port v : Word) : (s.ioWriteWord space port v).events = s.events ++ [.ioWrite space port 2 v] := rfl
@[simp] theorem State.ioWriteWord_clock (s : State) (space : IoSpace) (port v : Word) : (s.ioWriteWord space port v).clock = s.clock := rfl

/-! `ioWriteByte`. -/

@[simp] theorem State.ioWriteByte_regs (s : State) (space : IoSpace) (port : Word) (v : Byte) : (s.ioWriteByte space port v).regs = s.regs := rfl
@[simp] theorem State.ioWriteByte_pc (s : State) (space : IoSpace) (port : Word) (v : Byte) : (s.ioWriteByte space port v).pc = s.pc := rfl
@[simp] theorem State.ioWriteByte_fcw (s : State) (space : IoSpace) (port : Word) (v : Byte) : (s.ioWriteByte space port v).fcw = s.fcw := rfl
@[simp] theorem State.ioWriteByte_psap (s : State) (space : IoSpace) (port : Word) (v : Byte) : (s.ioWriteByte space port v).psap = s.psap := rfl
@[simp] theorem State.ioWriteByte_refresh (s : State) (space : IoSpace) (port : Word) (v : Byte) : (s.ioWriteByte space port v).refresh = s.refresh := rfl
@[simp] theorem State.ioWriteByte_nsp (s : State) (space : IoSpace) (port : Word) (v : Byte) : (s.ioWriteByte space port v).nsp = s.nsp := rfl
@[simp] theorem State.ioWriteByte_mo (s : State) (space : IoSpace) (port : Word) (v : Byte) : (s.ioWriteByte space port v).mo = s.mo := rfl
@[simp] theorem State.ioWriteByte_nmip (s : State) (space : IoSpace) (port : Word) (v : Byte) : (s.ioWriteByte space port v).nmip = s.nmip := rfl
@[simp] theorem State.ioWriteByte_halted (s : State) (space : IoSpace) (port : Word) (v : Byte) : (s.ioWriteByte space port v).halted = s.halted := rfl
@[simp] theorem State.ioWriteByte_mem (s : State) (space : IoSpace) (port : Word) (v : Byte) : (s.ioWriteByte space port v).mem = s.mem := rfl
@[simp] theorem State.ioWriteByte_inputs (s : State) (space : IoSpace) (port : Word) (v : Byte) : (s.ioWriteByte space port v).inputs = s.inputs := rfl
@[simp] theorem State.ioWriteByte_events (s : State) (space : IoSpace) (port : Word) (v : Byte) : (s.ioWriteByte space port v).events = s.events ++ [.ioWrite space port 1 (0x00#8 ++ v)] := rfl
@[simp] theorem State.ioWriteByte_clock (s : State) (space : IoSpace) (port : Word) (v : Byte) : (s.ioWriteByte space port v).clock = s.clock := rfl

/-! `loadStatus`. -/

@[simp] theorem State.loadStatus_regs (s : State) (f p : Word) : (s.loadStatus f p).regs = s.regs := rfl
@[simp] theorem State.loadStatus_pc (s : State) (f p : Word) : (s.loadStatus f p).pc = p := rfl
@[simp] theorem State.loadStatus_fcw (s : State) (f p : Word) : (s.loadStatus f p).fcw = fcwMask f := rfl
@[simp] theorem State.loadStatus_psap (s : State) (f p : Word) : (s.loadStatus f p).psap = s.psap := rfl
@[simp] theorem State.loadStatus_refresh (s : State) (f p : Word) : (s.loadStatus f p).refresh = s.refresh := rfl
@[simp] theorem State.loadStatus_nsp (s : State) (f p : Word) : (s.loadStatus f p).nsp = s.nsp := rfl
@[simp] theorem State.loadStatus_mo (s : State) (f p : Word) : (s.loadStatus f p).mo = s.mo := rfl
@[simp] theorem State.loadStatus_nmip (s : State) (f p : Word) : (s.loadStatus f p).nmip = s.nmip := rfl
@[simp] theorem State.loadStatus_halted (s : State) (f p : Word) : (s.loadStatus f p).halted = s.halted := rfl
@[simp] theorem State.loadStatus_mem (s : State) (f p : Word) : (s.loadStatus f p).mem = s.mem := rfl
@[simp] theorem State.loadStatus_inputs (s : State) (f p : Word) : (s.loadStatus f p).inputs = s.inputs := rfl
@[simp] theorem State.loadStatus_events (s : State) (f p : Word) : (s.loadStatus f p).events = s.events := rfl
@[simp] theorem State.loadStatus_clock (s : State) (f p : Word) : (s.loadStatus f p).clock = s.clock := rfl

/-! `rewind`. -/

@[simp] theorem State.rewind_regs (s : State) : (s.rewind).regs = s.regs := rfl
@[simp] theorem State.rewind_pc (s : State) : (s.rewind).pc = s.pc - 4 := rfl
@[simp] theorem State.rewind_fcw (s : State) : (s.rewind).fcw = s.fcw := rfl
@[simp] theorem State.rewind_psap (s : State) : (s.rewind).psap = s.psap := rfl
@[simp] theorem State.rewind_refresh (s : State) : (s.rewind).refresh = s.refresh := rfl
@[simp] theorem State.rewind_nsp (s : State) : (s.rewind).nsp = s.nsp := rfl
@[simp] theorem State.rewind_mo (s : State) : (s.rewind).mo = s.mo := rfl
@[simp] theorem State.rewind_nmip (s : State) : (s.rewind).nmip = s.nmip := rfl
@[simp] theorem State.rewind_halted (s : State) : (s.rewind).halted = s.halted := rfl
@[simp] theorem State.rewind_mem (s : State) : (s.rewind).mem = s.mem := rfl
@[simp] theorem State.rewind_inputs (s : State) : (s.rewind).inputs = s.inputs := rfl
@[simp] theorem State.rewind_events (s : State) : (s.rewind).events = s.events := rfl
@[simp] theorem State.rewind_clock (s : State) : (s.rewind).clock = s.clock := rfl

/-! `jump`. -/

@[simp] theorem State.jump_regs (s : State) (a : Word) : (s.jump a).regs = s.regs := rfl
@[simp] theorem State.jump_pc (s : State) (a : Word) : (s.jump a).pc = a := rfl
@[simp] theorem State.jump_fcw (s : State) (a : Word) : (s.jump a).fcw = s.fcw := rfl
@[simp] theorem State.jump_psap (s : State) (a : Word) : (s.jump a).psap = s.psap := rfl
@[simp] theorem State.jump_refresh (s : State) (a : Word) : (s.jump a).refresh = s.refresh := rfl
@[simp] theorem State.jump_nsp (s : State) (a : Word) : (s.jump a).nsp = s.nsp := rfl
@[simp] theorem State.jump_mo (s : State) (a : Word) : (s.jump a).mo = s.mo := rfl
@[simp] theorem State.jump_nmip (s : State) (a : Word) : (s.jump a).nmip = s.nmip := rfl
@[simp] theorem State.jump_halted (s : State) (a : Word) : (s.jump a).halted = s.halted := rfl
@[simp] theorem State.jump_mem (s : State) (a : Word) : (s.jump a).mem = s.mem := rfl
@[simp] theorem State.jump_inputs (s : State) (a : Word) : (s.jump a).inputs = s.inputs := rfl
@[simp] theorem State.jump_events (s : State) (a : Word) : (s.jump a).events = s.events := rfl
@[simp] theorem State.jump_clock (s : State) (a : Word) : (s.jump a).clock = s.clock := rfl

/-! `advance`. -/

@[simp] theorem State.advance_regs (s : State) (rest : List Word) : (s.advance rest).regs = s.regs := rfl
@[simp] theorem State.advance_pc (s : State) (rest : List Word) : (s.advance rest).pc = s.pc + BitVec.ofNat 16 (6 - 2 * rest.length) := rfl
@[simp] theorem State.advance_fcw (s : State) (rest : List Word) : (s.advance rest).fcw = s.fcw := rfl
@[simp] theorem State.advance_psap (s : State) (rest : List Word) : (s.advance rest).psap = s.psap := rfl
@[simp] theorem State.advance_refresh (s : State) (rest : List Word) : (s.advance rest).refresh = s.refresh := rfl
@[simp] theorem State.advance_nsp (s : State) (rest : List Word) : (s.advance rest).nsp = s.nsp := rfl
@[simp] theorem State.advance_mo (s : State) (rest : List Word) : (s.advance rest).mo = s.mo := rfl
@[simp] theorem State.advance_nmip (s : State) (rest : List Word) : (s.advance rest).nmip = s.nmip := rfl
@[simp] theorem State.advance_halted (s : State) (rest : List Word) : (s.advance rest).halted = s.halted := rfl
@[simp] theorem State.advance_mem (s : State) (rest : List Word) : (s.advance rest).mem = s.mem := rfl
@[simp] theorem State.advance_inputs (s : State) (rest : List Word) : (s.advance rest).inputs = s.inputs := rfl
@[simp] theorem State.advance_events (s : State) (rest : List Word) : (s.advance rest).events = s.events := rfl
@[simp] theorem State.advance_clock (s : State) (rest : List Word) : (s.advance rest).clock = s.clock := rfl

/-! `setReg`: in Normal mode R15 is NSP, else a register of the file; nothing else changes. -/

@[simp] theorem State.setReg_pc (s : State) (r : RegCode) (v : Word) : (s.setReg r v).pc = s.pc := by
  unfold State.setReg; split <;> rfl
@[simp] theorem State.setReg_fcw (s : State) (r : RegCode) (v : Word) : (s.setReg r v).fcw = s.fcw := by
  unfold State.setReg; split <;> rfl
@[simp] theorem State.setReg_psap (s : State) (r : RegCode) (v : Word) : (s.setReg r v).psap = s.psap := by
  unfold State.setReg; split <;> rfl
@[simp] theorem State.setReg_refresh (s : State) (r : RegCode) (v : Word) : (s.setReg r v).refresh = s.refresh := by
  unfold State.setReg; split <;> rfl
@[simp] theorem State.setReg_mo (s : State) (r : RegCode) (v : Word) : (s.setReg r v).mo = s.mo := by
  unfold State.setReg; split <;> rfl
@[simp] theorem State.setReg_nmip (s : State) (r : RegCode) (v : Word) : (s.setReg r v).nmip = s.nmip := by
  unfold State.setReg; split <;> rfl
@[simp] theorem State.setReg_halted (s : State) (r : RegCode) (v : Word) : (s.setReg r v).halted = s.halted := by
  unfold State.setReg; split <;> rfl
@[simp] theorem State.setReg_mem (s : State) (r : RegCode) (v : Word) : (s.setReg r v).mem = s.mem := by
  unfold State.setReg; split <;> rfl
@[simp] theorem State.setReg_inputs (s : State) (r : RegCode) (v : Word) : (s.setReg r v).inputs = s.inputs := by
  unfold State.setReg; split <;> rfl
@[simp] theorem State.setReg_events (s : State) (r : RegCode) (v : Word) : (s.setReg r v).events = s.events := by
  unfold State.setReg; split <;> rfl
@[simp] theorem State.setReg_clock (s : State) (r : RegCode) (v : Word) : (s.setReg r v).clock = s.clock := by
  unfold State.setReg; split <;> rfl

/-! `setMob`: the pin and, when it changes, the trace. -/

@[simp] theorem State.setMob_regs (s : State) (b : Bool) : (s.setMob b).regs = s.regs := by
  unfold State.setMob; split <;> rfl
@[simp] theorem State.setMob_pc (s : State) (b : Bool) : (s.setMob b).pc = s.pc := by
  unfold State.setMob; split <;> rfl
@[simp] theorem State.setMob_fcw (s : State) (b : Bool) : (s.setMob b).fcw = s.fcw := by
  unfold State.setMob; split <;> rfl
@[simp] theorem State.setMob_psap (s : State) (b : Bool) : (s.setMob b).psap = s.psap := by
  unfold State.setMob; split <;> rfl
@[simp] theorem State.setMob_refresh (s : State) (b : Bool) : (s.setMob b).refresh = s.refresh := by
  unfold State.setMob; split <;> rfl
@[simp] theorem State.setMob_nsp (s : State) (b : Bool) : (s.setMob b).nsp = s.nsp := by
  unfold State.setMob; split <;> rfl
@[simp] theorem State.setMob_nmip (s : State) (b : Bool) : (s.setMob b).nmip = s.nmip := by
  unfold State.setMob; split <;> rfl
@[simp] theorem State.setMob_halted (s : State) (b : Bool) : (s.setMob b).halted = s.halted := by
  unfold State.setMob; split <;> rfl
@[simp] theorem State.setMob_mem (s : State) (b : Bool) : (s.setMob b).mem = s.mem := by
  unfold State.setMob; split <;> rfl
@[simp] theorem State.setMob_inputs (s : State) (b : Bool) : (s.setMob b).inputs = s.inputs := by
  unfold State.setMob; split <;> rfl
@[simp] theorem State.setMob_clock (s : State) (b : Bool) : (s.setMob b).clock = s.clock := by
  unfold State.setMob; split <;> rfl
@[simp] theorem State.setMob_mo (s : State) (b : Bool) : (s.setMob b).mo = b := by
  unfold State.setMob; split <;> simp_all

theorem State.setMob_events (s : State) (b : Bool) :
    (s.setMob b).events = if s.mo = b then s.events else s.events ++ [.mob b] := by
  unfold State.setMob; split <;> rfl

/-! `setByteReg` and `setPairValue` are writes of word registers. -/

@[simp] theorem State.setByteReg_pc (s : State) (c : RegCode) (v : Byte) : (s.setByteReg c v).pc = s.pc := by
  simp [State.setByteReg]
@[simp] theorem State.setPairValue_pc (s : State) (c : RegCode) (v : Long) : (s.setPairValue c v).pc = s.pc := by
  simp [State.setPairValue]
@[simp] theorem State.setByteReg_fcw (s : State) (c : RegCode) (v : Byte) : (s.setByteReg c v).fcw = s.fcw := by
  simp [State.setByteReg]
@[simp] theorem State.setPairValue_fcw (s : State) (c : RegCode) (v : Long) : (s.setPairValue c v).fcw = s.fcw := by
  simp [State.setPairValue]
@[simp] theorem State.setByteReg_psap (s : State) (c : RegCode) (v : Byte) : (s.setByteReg c v).psap = s.psap := by
  simp [State.setByteReg]
@[simp] theorem State.setPairValue_psap (s : State) (c : RegCode) (v : Long) : (s.setPairValue c v).psap = s.psap := by
  simp [State.setPairValue]
@[simp] theorem State.setByteReg_refresh (s : State) (c : RegCode) (v : Byte) : (s.setByteReg c v).refresh = s.refresh := by
  simp [State.setByteReg]
@[simp] theorem State.setPairValue_refresh (s : State) (c : RegCode) (v : Long) : (s.setPairValue c v).refresh = s.refresh := by
  simp [State.setPairValue]
@[simp] theorem State.setByteReg_mo (s : State) (c : RegCode) (v : Byte) : (s.setByteReg c v).mo = s.mo := by
  simp [State.setByteReg]
@[simp] theorem State.setPairValue_mo (s : State) (c : RegCode) (v : Long) : (s.setPairValue c v).mo = s.mo := by
  simp [State.setPairValue]
@[simp] theorem State.setByteReg_nmip (s : State) (c : RegCode) (v : Byte) : (s.setByteReg c v).nmip = s.nmip := by
  simp [State.setByteReg]
@[simp] theorem State.setPairValue_nmip (s : State) (c : RegCode) (v : Long) : (s.setPairValue c v).nmip = s.nmip := by
  simp [State.setPairValue]
@[simp] theorem State.setByteReg_halted (s : State) (c : RegCode) (v : Byte) : (s.setByteReg c v).halted = s.halted := by
  simp [State.setByteReg]
@[simp] theorem State.setPairValue_halted (s : State) (c : RegCode) (v : Long) : (s.setPairValue c v).halted = s.halted := by
  simp [State.setPairValue]
@[simp] theorem State.setByteReg_mem (s : State) (c : RegCode) (v : Byte) : (s.setByteReg c v).mem = s.mem := by
  simp [State.setByteReg]
@[simp] theorem State.setPairValue_mem (s : State) (c : RegCode) (v : Long) : (s.setPairValue c v).mem = s.mem := by
  simp [State.setPairValue]
@[simp] theorem State.setByteReg_inputs (s : State) (c : RegCode) (v : Byte) : (s.setByteReg c v).inputs = s.inputs := by
  simp [State.setByteReg]
@[simp] theorem State.setPairValue_inputs (s : State) (c : RegCode) (v : Long) : (s.setPairValue c v).inputs = s.inputs := by
  simp [State.setPairValue]
@[simp] theorem State.setByteReg_events (s : State) (c : RegCode) (v : Byte) : (s.setByteReg c v).events = s.events := by
  simp [State.setByteReg]
@[simp] theorem State.setPairValue_events (s : State) (c : RegCode) (v : Long) : (s.setPairValue c v).events = s.events := by
  simp [State.setPairValue]
@[simp] theorem State.setByteReg_clock (s : State) (c : RegCode) (v : Byte) : (s.setByteReg c v).clock = s.clock := by
  simp [State.setByteReg]
@[simp] theorem State.setPairValue_clock (s : State) (c : RegCode) (v : Long) : (s.setPairValue c v).clock = s.clock := by
  simp [State.setPairValue]

end Sys2Proof.Machine
end

