-- ==== Sys2Proof/Laws/Registers.lean ====
section
/-!
SUPPORT. Laws/Registers.lean: reading after writing, for word registers, byte registers and pairs, in either mode.
-/

namespace Sys2Proof.Machine

open Sys2Proof

/-- SYS is a bit of the FCW. -/
theorem State.sys_eq {s t : State} (h : t.fcw = s.fcw) : t.sys = s.sys := by simp [State.sys, h]

@[simp] theorem State.setReg_sys (s : State) (r : RegCode) (v : Word) : (s.setReg r v).sys = s.sys :=
  State.sys_eq (by simp)

@[simp] theorem State.writeByte_sys (s : State) (sp : Space) (a : Word) (v : Byte) : (s.writeByte sp a v).sys = s.sys :=
  State.sys_eq (by simp)

@[simp] theorem State.putWord_sys (s : State) (sp : Space) (a v : Word) : (s.putWord sp a v).sys = s.sys :=
  State.sys_eq (by simp)

/-- A register read depends on the register file, NSP and SYS only. -/
theorem State.reg_congr {s t : State} (hr : t.regs = s.regs) (hn : t.nsp = s.nsp) (hs : t.sys = s.sys) (r : RegCode) :
    t.reg r = s.reg r := by
  simp [State.reg, hr, hn, hs]

@[simp] theorem State.writeByte_reg (s : State) (sp : Space) (a : Word) (v : Byte) (r : RegCode) :
    (s.writeByte sp a v).reg r = s.reg r := State.reg_congr rfl rfl rfl r

@[simp] theorem State.putWord_reg (s : State) (sp : Space) (a v : Word) (r : RegCode) :
    (s.putWord sp a v).reg r = s.reg r := State.reg_congr rfl rfl rfl r

@[simp] theorem State.emit_reg (s : State) (e : Event) (r : RegCode) : (s.emit e).reg r = s.reg r :=
  State.reg_congr rfl rfl rfl r

@[simp] theorem State.ioWriteWord_reg (s : State) (space : IoSpace) (port v : Word) (r : RegCode) :
    (s.ioWriteWord space port v).reg r = s.reg r := State.reg_congr rfl rfl rfl r

@[simp] theorem State.ioWriteByte_reg (s : State) (space : IoSpace) (port : Word) (v : Byte) (r : RegCode) :
    (s.ioWriteByte space port v).reg r = s.reg r := State.reg_congr rfl rfl rfl r

@[simp] theorem State.rewind_reg (s : State) (r : RegCode) : s.rewind.reg r = s.reg r := State.reg_congr rfl rfl rfl r

@[simp] theorem State.jump_reg (s : State) (a : Word) (r : RegCode) : (s.jump a).reg r = s.reg r :=
  State.reg_congr rfl rfl rfl r

@[simp] theorem State.advance_reg (s : State) (rest : List Word) (r : RegCode) : (s.advance rest).reg r = s.reg r :=
  State.reg_congr rfl rfl rfl r

/-- A word register holds what was written to it. -/
@[simp] theorem State.reg_setReg_same (s : State) (r : RegCode) (v : Word) : (s.setReg r v).reg r = v := by
  by_cases h : r = 0xF#4 ∧ s.sys = false
  · have hs : State.sys { s with nsp := v } = false := h.2
    simp [State.setReg, State.reg, h.1, h.2, hs]
  · have hs : State.sys { s with regs := s.regs.set r.toNat v r.isLt } = s.sys := rfl
    rw [State.setReg, if_neg h, State.reg, hs, if_neg h]
    simp

/-- A write of one word register leaves the others. -/
theorem State.reg_setReg_other (s : State) {r q : RegCode} (v : Word) (h : q ≠ r) : (s.setReg r v).reg q = s.reg q := by
  have hn : r.toNat ≠ q.toNat := fun e => h (BitVec.eq_of_toNat_eq e.symm)
  by_cases hr : r = 0xF#4 ∧ s.sys = false
  · have hs : State.sys { s with nsp := v } = s.sys := rfl
    have hq : ¬(q = 0xF#4 ∧ s.sys = false) := fun hq => h (hq.1.trans hr.1.symm)
    rw [State.setReg, if_pos hr, State.reg, State.reg, hs, if_neg hq, if_neg hq]
  · have hs : State.sys { s with regs := s.regs.set r.toNat v r.isLt } = s.sys := rfl
    rw [State.setReg, if_neg hr, State.reg, State.reg, hs]
    split
    · rfl
    · simp [hn]

/-- Reading any register after a write. -/
theorem State.reg_setReg (s : State) (r q : RegCode) (v : Word) : (s.setReg r v).reg q = if q = r then v else s.reg q := by
  by_cases h : q = r
  · subst h; simp
  · simp [h, State.reg_setReg_other s v h]

/-- In System mode a register write leaves NSP. -/
theorem State.setReg_nsp (s : State) (r : RegCode) (v : Word) (h : s.sys = true) : (s.setReg r v).nsp = s.nsp := by
  simp [State.setReg, h]

/-- In System mode a register is an element of the file. -/
theorem State.reg_system (s : State) (r : RegCode) (h : s.sys = true) : s.reg r = s.regs[r.toNat]'(r.isLt) := by
  simp [State.reg, h]

/-- Reading any word register after a write of a byte register: only its home changes. -/
theorem State.reg_setByteReg_other (s : State) {c q : RegCode} (v : Byte) (h : q ≠ byteHome c) :
    (s.setByteReg c v).reg q = s.reg q := State.reg_setReg_other s _ h

/-- Two byte codes with one home and one half are the same code. -/
theorem byteCode_ext {c e : RegCode} (h : byteHome e = byteHome c) (hb : e.getLsbD 3 = c.getLsbD 3) : e = c := by
  revert c e; decide

/-- The low half of two bytes put together. -/
@[simp] theorem lowByte_append (x y : Byte) : (x ++ y).extractLsb' 0 8 = y := by
  apply BitVec.eq_of_getLsbD_eq
  intro i hi
  simp only [BitVec.getLsbD_extractLsb', BitVec.getLsbD_append]
  simp [hi]

/-- The high half of two bytes put together. -/
@[simp] theorem highByte_append (x y : Byte) : (x ++ y).extractLsb' 8 8 = x := by
  apply BitVec.eq_of_getLsbD_eq
  intro i hi
  simp only [BitVec.getLsbD_extractLsb', BitVec.getLsbD_append]
  simp [hi]

/-- A word is its two halves. -/
@[simp] theorem bytes_append (v : Word) : v.extractLsb' 8 8 ++ v.extractLsb' 0 8 = v := by
  apply BitVec.eq_of_getLsbD_eq
  intro i hi
  simp only [BitVec.getLsbD_extractLsb', BitVec.getLsbD_append]
  by_cases h : i < 8
  · simp [h]
  · simp [h, show i - 8 < 8 by omega, show 8 + (i - 8) = i by omega]

/-- The low half of two words put together. -/
@[simp] theorem lowWord_append (x y : Word) : (x ++ y).extractLsb' 0 16 = y := by
  apply BitVec.eq_of_getLsbD_eq
  intro i hi
  simp only [BitVec.getLsbD_extractLsb', BitVec.getLsbD_append]
  simp [hi]

/-- The high half of two words put together. -/
@[simp] theorem highWord_append (x y : Word) : (x ++ y).extractLsb' 16 16 = x := by
  apply BitVec.eq_of_getLsbD_eq
  intro i hi
  simp only [BitVec.getLsbD_extractLsb', BitVec.getLsbD_append]
  simp [hi]

/-- A long is its two halves. -/
@[simp] theorem words_append (v : Long) : v.extractLsb' 16 16 ++ v.extractLsb' 0 16 = v := by
  apply BitVec.eq_of_getLsbD_eq
  intro i hi
  simp only [BitVec.getLsbD_extractLsb', BitVec.getLsbD_append]
  by_cases h : i < 16
  · simp [h]
  · simp [h, show i - 16 < 16 by omega, show 16 + (i - 16) = i by omega]

/-- A quadruple word is its two halves. -/
@[simp] theorem longs_append (v : Quad) : v.extractLsb' 32 32 ++ v.extractLsb' 0 32 = v := by
  apply BitVec.eq_of_getLsbD_eq
  intro i hi
  simp only [BitVec.getLsbD_extractLsb', BitVec.getLsbD_append]
  by_cases h : i < 32
  · simp [h]
  · simp [h, show i - 32 < 32 by omega, show 32 + (i - 32) = i by omega]

/-- A byte register holds what was written to it. -/
@[simp] theorem State.byteReg_setByteReg_same (s : State) (c : RegCode) (v : Byte) :
    (s.setByteReg c v).byteReg c = v := by
  unfold State.byteReg State.setByteReg
  simp only [State.reg_setReg_same]
  split <;> simp only [lowByte_append, highByte_append]

/-- A write of one byte register leaves the others, the other half of its word register among them. -/
theorem State.byteReg_setByteReg_other (s : State) {c e : RegCode} (v : Byte) (h : e ≠ c) :
    (s.setByteReg c v).byteReg e = s.byteReg e := by
  by_cases hh : byteHome e = byteHome c
  · have hb : e.getLsbD 3 ≠ c.getLsbD 3 := fun hb => h (byteCode_ext hh hb)
    unfold State.byteReg State.setByteReg
    rw [hh]
    simp only [State.reg_setReg_same]
    cases he : e.getLsbD 3 <;> cases hc : c.getLsbD 3
    · exact absurd (he.trans hc.symm) hb
    · simp only [if_true, if_false, Bool.false_eq_true, highByte_append]
    · simp only [if_true, if_false, Bool.false_eq_true, lowByte_append]
    · exact absurd (he.trans hc.symm) hb
  · unfold State.byteReg
    rw [State.reg_setByteReg_other s v hh]

/-- The two registers of a pair are different. -/
theorem succ_ne_self (c : RegCode) : c + 1 ≠ c := by revert c; decide

/-- A pair holds what was written to it. -/
@[simp] theorem State.pairValue_setPairValue (s : State) (c : RegCode) (v : Long) :
    (s.setPairValue c v).pairValue c = v := by
  unfold State.pairValue State.setPairValue
  rw [State.reg_setReg_other _ _ (succ_ne_self c).symm]
  simp only [State.reg_setReg_same, words_append]

/-- A write of a pair leaves the registers outside it. -/
theorem State.reg_setPairValue_other (s : State) {c q : RegCode} (v : Long) (h : q ≠ c) (h1 : q ≠ c + 1) :
    (s.setPairValue c v).reg q = s.reg q := by
  unfold State.setPairValue
  rw [State.reg_setReg_other _ _ h1, State.reg_setReg_other _ _ h]

/-- A write of a pair leaves a pair that shares no register with it. -/
theorem State.pairValue_setPairValue_other (s : State) {c q : RegCode} (v : Long) (h : q ≠ c) (h1 : q ≠ c + 1)
    (h2 : q + 1 ≠ c) : (s.setPairValue c v).pairValue q = s.pairValue q := by
  have h3 : q + 1 ≠ c + 1 := fun e => h (add_right_cancel e)
  unfold State.pairValue
  rw [State.reg_setPairValue_other s v h h1, State.reg_setPairValue_other s v h2 h3]

/-- A legal pair code takes a write, and the pair then holds the value (10_state.md R23). -/
theorem State.setPair_ok {s t : State} {c : RegCode} {v : Long} (h : s.setPair c v = .ok t) :
    pairCode c = true ∧ t = s.setPairValue c v := by
  unfold State.setPair at h
  split at h
  · exact ⟨‹_›, by injection h with h; exact h.symm⟩
  · cases h

/-- What a read of a pair answers (R23, R37). -/
theorem State.pair_ok {s : State} {c : RegCode} {v : Long} (h : s.pair c = .ok v) :
    pairCode c = true ∧ v = s.pairValue c := by
  unfold State.pair at h
  split at h
  · exact ⟨‹_›, by injection h with h; exact h.symm⟩
  · cases h

/-- What a write of a quadruple answers (R24, R37). -/
theorem State.setQuad_ok {s t : State} {c : RegCode} {v : Quad} (h : s.setQuad c v = .ok t) :
    quadCode c = true ∧
      t = (s.setPairValue c (v.extractLsb' 32 32)).setPairValue (c + 2) (v.extractLsb' 0 32) := by
  unfold State.setQuad at h
  split at h
  · exact ⟨‹_›, by injection h with h; exact h.symm⟩
  · cases h

/-- What a read of a quadruple answers (R24, R37). -/
theorem State.quad_ok {s : State} {c : RegCode} {v : Quad} (h : s.quad c = .ok v) :
    quadCode c = true ∧ v = s.quadValue c := by
  unfold State.quad at h
  split at h
  · exact ⟨‹_›, by injection h with h; exact h.symm⟩
  · cases h

end Sys2Proof.Machine
end

