-- ==== Sys2Proof/Laws/Memory.lean ====
section
/-!
SUPPORT. Laws/Memory.lean: reading after writing, and the canonical form that every memory operation keeps (20_memory.md R64,
R65). The laws of reading hold of every list; the canonical form makes equal memories equal lists.
-/

namespace Sys2Proof.Machine

open Sys2Proof

/-! Reading. -/

/-- A new entry is read back when no older entry has its address. -/
theorem Memory.read_insert_same (a : Nat) (v : Byte) (m : List Host.Cell) (h : ∀ c ∈ m, c.1 ≠ a) :
    Memory.read (Memory.insert a v m) a = v := by
  induction m with
  | nil => simp [Memory.insert, Memory.read]
  | cons c m ih =>
    obtain ⟨k, w⟩ := c
    have hk : k ≠ a := h (k, w) (by simp)
    unfold Memory.insert
    split
    · simp [Memory.read]
    · simp [Memory.read, hk, ih fun c hc => h c (by simp [hc])]

/-- A new entry leaves what other addresses read as. -/
theorem Memory.read_insert_other (a b : Nat) (v : Byte) (m : List Host.Cell) (h : b ≠ a) :
    Memory.read (Memory.insert a v m) b = Memory.read m b := by
  induction m with
  | nil => simp [Memory.insert, Memory.read, h.symm]
  | cons c m ih =>
    obtain ⟨k, w⟩ := c
    unfold Memory.insert
    split
    · simp [Memory.read, h.symm]
    · simp only [Memory.read, ih]

/-- Without its entries an address reads as unwritten. -/
theorem Memory.read_without_same (a : Nat) (m : List Host.Cell) :
    Memory.read (m.filter fun cell => cell.1 != a) a = Config.unwrittenByte := by
  induction m with
  | nil => rfl
  | cons c m ih =>
    obtain ⟨k, w⟩ := c
    by_cases hk : k = a
    · simp [hk, ih]
    · simp [hk, Memory.read, ih]

/-- Removing the entries of one address leaves what others read as. -/
theorem Memory.read_without_other (a b : Nat) (m : List Host.Cell) (h : b ≠ a) :
    Memory.read (m.filter fun cell => cell.1 != a) b = Memory.read m b := by
  induction m with
  | nil => rfl
  | cons c m ih =>
    obtain ⟨k, w⟩ := c
    by_cases hk : k = a
    · subst hk; simp [Memory.read, h.symm, ih]
    · simp only [List.filter_cons, bne_iff_ne, ne_eq, hk, not_false_eq_true, if_true, Memory.read, ih]

/-- An address reads as the byte last written to it. -/
@[simp] theorem Memory.read_write_same (m : List Host.Cell) (a : Nat) (v : Byte) :
    Memory.read (Memory.write m a v) a = v := by
  unfold Memory.write
  dsimp only
  split
  · rw [Memory.read_without_same]; exact Eq.symm ‹_›
  · exact Memory.read_insert_same a v _ (by simp)

/-- A write leaves every other address. -/
theorem Memory.read_write_other (m : List Host.Cell) {a b : Nat} (v : Byte) (h : b ≠ a) :
    Memory.read (Memory.write m a v) b = Memory.read m b := by
  unfold Memory.write
  dsimp only
  split
  · exact Memory.read_without_other a b m h
  · rw [Memory.read_insert_other a b v _ h, Memory.read_without_other a b m h]

/-! The canonical form. -/

/-- Rising from a bound is rising from a lower one. -/
theorem Memory.rising_mono {lo hi : Nat} (h : lo ≤ hi) {m : List Host.Cell} (hm : Memory.rising hi m = true) :
    Memory.rising lo m = true := by
  cases m with
  | nil => rfl
  | cons c m =>
    obtain ⟨k, w⟩ := c
    simp only [Memory.rising, Bool.and_eq_true, decide_eq_true_eq] at hm ⊢
    exact ⟨by omega, hm.2⟩

/-- A part of a rising list rises. -/
theorem Memory.rising_filter (p : Host.Cell → Bool) {lo : Nat} {m : List Host.Cell} (hm : Memory.rising lo m = true) :
    Memory.rising lo (m.filter p) = true := by
  induction m generalizing lo with
  | nil => rfl
  | cons c m ih =>
    obtain ⟨k, w⟩ := c
    simp only [Memory.rising, Bool.and_eq_true, decide_eq_true_eq] at hm
    rw [List.filter_cons]
    split
    · simp only [Memory.rising, Bool.and_eq_true, decide_eq_true_eq]
      exact ⟨hm.1, ih hm.2⟩
    · exact Memory.rising_mono (by omega) (ih hm.2)

/-- A new address goes to its place in a rising list. -/
theorem Memory.rising_insert {a lo : Nat} (v : Byte) {m : List Host.Cell} (hlo : lo ≤ a)
    (hm : Memory.rising lo m = true) (ha : ∀ c ∈ m, c.1 ≠ a) : Memory.rising lo (Memory.insert a v m) = true := by
  induction m generalizing lo with
  | nil => simp [Memory.insert, Memory.rising, hlo]
  | cons c m ih =>
    obtain ⟨k, w⟩ := c
    have hk : k ≠ a := ha (k, w) (by simp)
    simp only [Memory.rising, Bool.and_eq_true, decide_eq_true_eq] at hm
    unfold Memory.insert
    split
    · simp only [Memory.rising, Bool.and_eq_true, decide_eq_true_eq]
      exact ⟨hlo, by omega, hm.2⟩
    · simp only [Memory.rising, Bool.and_eq_true, decide_eq_true_eq]
      exact ⟨hm.1, ih (by omega) hm.2 fun c hc => ha c (by simp [hc])⟩

/-- What an entry of the list after an insertion is. -/
theorem Memory.mem_insert {a : Nat} {v : Byte} {m : List Host.Cell} {c : Host.Cell} (h : c ∈ Memory.insert a v m) :
    c = (a, v) ∨ c ∈ m := by
  induction m with
  | nil => simpa [Memory.insert] using h
  | cons d m ih =>
    obtain ⟨k, w⟩ := d
    unfold Memory.insert at h
    split at h
    · simpa using h
    · rcases List.mem_cons.mp h with h | h
      · exact .inr (by simp [h])
      · exact (ih h).imp id fun h => by simp [h]

/-- A write keeps the canonical form. -/
theorem Memory.wf_write {m : List Host.Cell} {a : Nat} (v : Byte) (ha : a < 2 ^ 16) (hm : Memory.wf m = true) :
    Memory.wf (Memory.write m a v) = true := by
  simp only [Memory.wf, Bool.and_eq_true, List.all_eq_true, decide_eq_true_eq, bne_iff_ne, ne_eq] at hm ⊢
  have hr := Memory.rising_filter (fun cell => cell.1 != a) hm.1
  unfold Memory.write
  dsimp only
  split
  · exact ⟨hr, fun c hc => hm.2 c (List.mem_filter.mp hc).1⟩
  · refine ⟨Memory.rising_insert v (Nat.zero_le a) hr (by simp), fun c hc => ?_⟩
    rcases Memory.mem_insert hc with rfl | hc
    · exact ⟨ha, ‹_›⟩
    · exact hm.2 c (List.mem_filter.mp hc).1

/-- In the canonical form memory is a function of what every address reads as: rising lists that read alike are equal. -/
theorem Memory.eq_of_read {m n : List Host.Cell} {lo : Nat} (hm : Memory.rising lo m = true)
    (hn : Memory.rising lo n = true) (um : ∀ c ∈ m, c.2 ≠ Config.unwrittenByte)
    (un : ∀ c ∈ n, c.2 ≠ Config.unwrittenByte) (h : ∀ a, Memory.read m a = Memory.read n a) : m = n := by
  have below : ∀ (l : List Host.Cell) (lo a : Nat), Memory.rising lo l = true → a < lo →
      Memory.read l a = Config.unwrittenByte := by
    intro l
    induction l with
    | nil => intros; rfl
    | cons c l ih =>
      obtain ⟨k, w⟩ := c
      intro lo a hl ha
      simp only [Memory.rising, Bool.and_eq_true, decide_eq_true_eq] at hl
      rw [Memory.read, if_neg (by omega)]
      exact ih (k + 1) a hl.2 (by omega)
  induction m generalizing n lo with
  | nil =>
    cases n with
    | nil => rfl
    | cons d n =>
      have := h d.1
      simp only [Memory.read, if_true] at this
      exact absurd this.symm (un d (by simp))
  | cons c m ih =>
    obtain ⟨k, w⟩ := c
    simp only [Memory.rising, Bool.and_eq_true, decide_eq_true_eq] at hm
    cases n with
    | nil =>
      have := h k
      simp only [Memory.read, if_true] at this
      exact absurd this (um (k, w) (by simp))
    | cons d n =>
      obtain ⟨j, x⟩ := d
      simp only [Memory.rising, Bool.and_eq_true, decide_eq_true_eq] at hn
      have hjk : k = j := by
        rcases Nat.lt_trichotomy k j with hlt | heq | hgt
        · have e := h k
          rw [Memory.read, if_pos rfl, Memory.read, if_neg (by omega), below n (j + 1) k hn.2 (by omega)] at e
          exact absurd e (um (k, w) (by simp))
        · exact heq
        · have e := h j
          rw [Memory.read, if_neg (by omega), below m (k + 1) j hm.2 (by omega), Memory.read, if_pos rfl] at e
          exact absurd e.symm (un (j, x) (by simp))
      subst hjk
      have hw : w = x := by simpa [Memory.read] using h k
      subst hw
      congr 1
      refine ih hm.2 hn.2 (fun c hc => um c (by simp [hc])) (fun c hc => un c (by simp [hc])) fun a => ?_
      by_cases ha : k = a
      · subst ha; rw [below m (k + 1) k hm.2 (by omega), below n (k + 1) k hn.2 (by omega)]
      · simpa [Memory.read, ha] using h a

/-! Bytes and words of a state. -/

/-- A byte read depends on memory only. -/
theorem State.readByte_congr {s t : State} (h : t.mem = s.mem) (sp : Space) (a : Word) :
    t.readByte sp a = s.readByte sp a := by simp [State.readByte, h]

/-- A word read depends on memory only. -/
theorem State.wordAt_congr {s t : State} (h : t.mem = s.mem) (sp : Space) (a : Word) :
    t.wordAt sp a = s.wordAt sp a := by
  unfold State.wordAt
  rw [State.readByte_congr h, State.readByte_congr h]

@[simp] theorem State.readByte_setReg (s : State) (r : RegCode) (v : Word) (sp : Space) (a : Word) :
    (s.setReg r v).readByte sp a = s.readByte sp a := State.readByte_congr (by simp) sp a

@[simp] theorem State.readByte_setFlags (s : State) (f : FlagWrite) (sp : Space) (a : Word) :
    (s.setFlags f).readByte sp a = s.readByte sp a := rfl

/-- The byte written is read back, through whichever space (R64, R65). -/
@[simp] theorem State.readByte_writeByte_same (s : State) (sp sq : Space) (a : Word) (v : Byte) :
    (s.writeByte sp a v).readByte sq a = v := by
  simp [State.readByte, State.writeByte, spaceMap]

/-- A byte write leaves every other address. -/
theorem State.readByte_writeByte_other (s : State) (sp sq : Space) {a b : Word} (v : Byte) (h : b ≠ a) :
    (s.writeByte sp a v).readByte sq b = s.readByte sq b := by
  have hn : b.toNat ≠ a.toNat := fun e => h (BitVec.eq_of_toNat_eq e)
  simpa [State.readByte, State.writeByte, spaceMap] using Memory.read_write_other s.mem v hn

/-- An address and the next are different. -/
theorem next_ne_self (a : Word) : a + 1 ≠ a := by bv_omega

/-- The word stored is read back, most significant byte first (R64, R65). -/
@[simp] theorem State.wordAt_putWord_same (s : State) (sp sq : Space) (a v : Word) :
    (s.putWord sp a v).wordAt sq a = v := by
  unfold State.wordAt State.putWord
  rw [State.readByte_writeByte_other _ _ _ _ (next_ne_self a).symm]
  simp

/-- A word store leaves every byte outside its two. -/
theorem State.readByte_putWord_other (s : State) (sp sq : Space) {a b : Word} (v : Word) (h : b ≠ a)
    (h1 : b ≠ a + 1) : (s.putWord sp a v).readByte sq b = s.readByte sq b := by
  unfold State.putWord
  rw [State.readByte_writeByte_other _ _ _ _ h1, State.readByte_writeByte_other _ _ _ _ h]

/-- A word store leaves a word whose bytes are not among its two. -/
theorem State.wordAt_putWord_other (s : State) (sp sq : Space) {a b : Word} (v : Word) (h : b ≠ a) (h1 : b ≠ a + 1)
    (h2 : b + 1 ≠ a) : (s.putWord sp a v).wordAt sq b = s.wordAt sq b := by
  have h3 : b + 1 ≠ a + 1 := fun e => h (add_right_cancel e)
  unfold State.wordAt
  rw [State.readByte_putWord_other _ _ _ _ h h1, State.readByte_putWord_other _ _ _ _ h2 h3]

/-- A byte write keeps the canonical form. -/
theorem State.wf_writeByte {s : State} (sp : Space) (a : Word) (v : Byte) (h : Memory.wf s.mem = true) :
    Memory.wf (s.writeByte sp a v).mem = true := Memory.wf_write v a.isLt h

/-- A word store keeps the canonical form. -/
theorem State.wf_putWord {s : State} (sp : Space) (a v : Word) (h : Memory.wf s.mem = true) :
    Memory.wf (s.putWord sp a v).mem = true := State.wf_writeByte _ _ _ (State.wf_writeByte _ _ _ h)

/-- Memory after reset is in the canonical form: it lists nothing. -/
theorem reset_memory_wf : Memory.wf State.reset.mem = true := rfl

/-- What a word read answers (R64, R67). -/
theorem State.readWord_ok {s : State} {sp : Space} {a v : Word} (h : s.readWord sp a = .ok v) :
    evenAddress a = true ∧ v = s.wordAt sp a := by
  unfold State.readWord at h
  split at h
  · exact ⟨‹_›, by injection h with h; exact h.symm⟩
  · cases h

/-- What a word write answers (R65, R67). -/
theorem State.writeWord_ok {s t : State} {sp : Space} {a v : Word} (h : s.writeWord sp a v = .ok t) :
    evenAddress a = true ∧ t = s.putWord sp a v := by
  unfold State.writeWord at h
  split at h
  · exact ⟨‹_›, by injection h with h; exact h.symm⟩
  · cases h

/-- What a long read answers (R64, R67). -/
theorem State.readLong_ok {s : State} {sp : Space} {a : Word} {v : Long} (h : s.readLong sp a = .ok v) :
    evenAddress a = true ∧ v = s.wordAt sp a ++ s.wordAt sp (a + 2) := by
  unfold State.readLong at h
  split at h
  · exact ⟨‹_›, by injection h with h; exact h.symm⟩
  · cases h

/-- What a long write answers (R65, R67). -/
theorem State.writeLong_ok {s t : State} {sp : Space} {a : Word} {v : Long} (h : s.writeLong sp a v = .ok t) :
    evenAddress a = true ∧
      t = (s.putWord sp a (v.extractLsb' 16 16)).putWord sp (a + 2) (v.extractLsb' 0 16) := by
  unfold State.writeLong at h
  split at h
  · exact ⟨‹_›, by injection h with h; exact h.symm⟩
  · cases h

end Sys2Proof.Machine
end

