-- ==== Sys2Proof/Laws/Flags.lean ====
section
/-!
SUPPORT. Laws/Flags.lean: what a write of flags does to every bit of the FCW, and the mask of a whole write (10_state.md R28,
R30).
-/

namespace Sys2Proof.Machine

open Sys2Proof

/-- A bit after a masked write: written where the mask is 1. -/
theorem getLsbD_putBit (w mask : Word) (b : Bool) (i : Nat) :
    (putBit w mask b).getLsbD i = if mask.getLsbD i then b else w.getLsbD i := by
  by_cases hi : i < 16
  · cases b <;> cases h : mask.getLsbD i <;>
      simp only [putBit, BitVec.getLsbD_or, BitVec.getLsbD_and, BitVec.getLsbD_not, h, hi, if_true, if_false,
        decide_true, Bool.false_eq_true, Bool.and_true, Bool.and_false, Bool.or_true, Bool.or_false, Bool.not_true,
        Bool.not_false]
  · have h1 : mask.getLsbD i = false := BitVec.getLsbD_of_ge mask i (by omega)
    have h2 : w.getLsbD i = false := BitVec.getLsbD_of_ge w i (by omega)
    have h3 : (putBit w mask b).getLsbD i = false := BitVec.getLsbD_of_ge _ i (by omega)
    simp [h1, h2, h3]

/-- A bit after an optional masked write. -/
theorem getLsbD_putFlag (mask : Word) (b : Option Bool) (w : Word) (i : Nat) :
    (putFlag mask b w).getLsbD i = if mask.getLsbD i then b.getD (w.getLsbD i) else w.getLsbD i := by
  cases b
  · simp [putFlag]
  · simp [putFlag, getLsbD_putBit]

/-- Every bit of the FCW after a write of flags: the six flags as written, the rest as before. -/
theorem FlagWrite.getLsbD_apply (f : FlagWrite) (w : Word) (i : Nat) :
    (f.apply w).getLsbD i =
      if i = 7 then f.c.getD (w.getLsbD 7) else if i = 6 then f.z.getD (w.getLsbD 6)
      else if i = 5 then f.s.getD (w.getLsbD 5) else if i = 4 then f.v.getD (w.getLsbD 4)
      else if i = 3 then f.d.getD (w.getLsbD 3) else if i = 2 then f.h.getD (w.getLsbD 2) else w.getLsbD i := by
  simp only [FlagWrite.apply, getLsbD_putFlag]
  by_cases hi : i < 16
  · interval_cases i <;> simp
  · have h : ∀ m : Word, m.getLsbD i = false := fun m => BitVec.getLsbD_of_ge m i (by omega)
    have hs : i ≠ 7 ∧ i ≠ 6 ∧ i ≠ 5 ∧ i ≠ 4 ∧ i ≠ 3 ∧ i ≠ 2 := by omega
    simp [h, hs]

@[simp] theorem State.carry_setFlags (s : State) (f : FlagWrite) : (s.setFlags f).carry = f.c.getD s.carry := by
  simp only [State.carry, State.setFlags_fcw, FlagWrite.getLsbD_apply]; rfl

@[simp] theorem State.zero_setFlags (s : State) (f : FlagWrite) : (s.setFlags f).zero = f.z.getD s.zero := by
  simp only [State.zero, State.setFlags_fcw, FlagWrite.getLsbD_apply]; rfl

@[simp] theorem State.sign_setFlags (s : State) (f : FlagWrite) : (s.setFlags f).sign = f.s.getD s.sign := by
  simp only [State.sign, State.setFlags_fcw, FlagWrite.getLsbD_apply]; rfl

@[simp] theorem State.overflow_setFlags (s : State) (f : FlagWrite) :
    (s.setFlags f).overflow = f.v.getD s.overflow := by
  simp only [State.overflow, State.setFlags_fcw, FlagWrite.getLsbD_apply]; rfl

@[simp] theorem State.decimal_setFlags (s : State) (f : FlagWrite) : (s.setFlags f).decimal = f.d.getD s.decimal := by
  simp only [State.decimal, State.setFlags_fcw, FlagWrite.getLsbD_apply]; rfl

@[simp] theorem State.halfCarry_setFlags (s : State) (f : FlagWrite) :
    (s.setFlags f).halfCarry = f.h.getD s.halfCarry := by
  simp only [State.halfCarry, State.setFlags_fcw, FlagWrite.getLsbD_apply]; rfl

@[simp] theorem State.sys_setFlags (s : State) (f : FlagWrite) : (s.setFlags f).sys = s.sys := by
  simp only [State.sys, State.setFlags_fcw, FlagWrite.getLsbD_apply]; rfl

/-- A register read does not see a write of flags. -/
@[simp] theorem State.setFlags_reg (s : State) (f : FlagWrite) (r : RegCode) : (s.setFlags f).reg r = s.reg r :=
  State.reg_congr (s := s) (t := s.setFlags f) rfl rfl (State.sys_setFlags s f) r

/-- A write of flags leaves the other ten bits of the FCW. -/
theorem FlagWrite.apply_other (f : FlagWrite) (w : Word) : f.apply w &&& 0xFF03#16 = w &&& 0xFF03#16 := by
  apply BitVec.eq_of_getLsbD_eq
  intro i hi
  simp only [BitVec.getLsbD_and, FlagWrite.getLsbD_apply]
  interval_cases i <;> simp

/-- The mask of a whole write in Revision 1 (R30). -/
theorem fcwMask_eq (v : Word) : fcwMask v = (v &&& 0x18FC#16) ||| 0x4000#16 := by
  simp [fcwMask, Config.hasNormalMode, Config.hasEpa]

/-- What has been masked is not changed by masking again. -/
@[simp] theorem fcwMask_fcwMask (v : Word) : fcwMask (fcwMask v) = fcwMask v := by
  simp only [fcwMask_eq]
  apply BitVec.eq_of_getLsbD_eq
  intro i hi
  simp only [BitVec.getLsbD_and, BitVec.getLsbD_or]
  interval_cases i <;> simp

/-- A word that the mask leaves alone: its fixed bits are as R30 fixes them. -/
theorem fcwMask_fixed {v : Word} : fcwMask v = v ↔ v &&& 0xE703#16 = 0x4000#16 := by
  rw [fcwMask_eq]
  constructor
  · intro h
    rw [← h]
    apply BitVec.eq_of_getLsbD_eq
    intro i hi
    simp only [BitVec.getLsbD_and, BitVec.getLsbD_or]
    interval_cases i <;> simp
  · intro h
    apply BitVec.eq_of_getLsbD_eq
    intro i hi
    have hb := congrArg (fun x : Word => x.getLsbD i) h
    simp only [BitVec.getLsbD_and, BitVec.getLsbD_or] at hb ⊢
    interval_cases i <;> simp_all

/-- The FCW keeps its fixed bits through a write of flags. -/
theorem fcwMask_apply {v : Word} (f : FlagWrite) (h : fcwMask v = v) : fcwMask (f.apply v) = f.apply v := by
  rw [fcwMask_fixed] at h ⊢
  rw [← h]
  apply BitVec.eq_of_getLsbD_eq
  intro i hi
  simp only [BitVec.getLsbD_and, FlagWrite.getLsbD_apply]
  interval_cases i <;> simp

/-- In Revision 1 the processor is in System mode (10_state.md R30, R25). -/
theorem State.Inv.system {s : State} (h : s.Inv) : s.sys = true := by
  have h1 := fcwMask_fixed.mp h.status
  have hb := congrArg (fun x : Word => x.getLsbD 14) h1
  simpa [State.sys] using hb

end Sys2Proof.Machine
end

