-- ==== Sys2Proof/Laws/Arithmetic.lean ====
section
/-!
SUPPORT. Laws/Arithmetic.lean: the values of the addition and subtraction helpers without a carry in, and the parity and
negation that the instructions build on.
-/

namespace Sys2Proof.Machine

open Sys2Proof

/-- The sum without a carry in. -/
@[simp] theorem addWith_value {n : Nat} (a b : BitVec n) : (addWith a b false).value = a + b := by
  simp [addWith, BitVec.add_def]

/-- The difference without a borrow in. -/
@[simp] theorem subWith_value {n : Nat} (a b : BitVec n) : (subWith a b false).value = a - b := by
  simp only [subWith, Bool.toNat_false]
  apply BitVec.eq_of_toNat_eq
  rw [BitVec.toNat_ofInt, BitVec.toNat_sub]
  have hb := b.isLt
  generalize a.toNat = x at *
  generalize b.toNat = y at *
  have h : ((x : Int) - y - (0 : Nat)) % ((2 ^ n : Nat) : Int) =
      ((2 ^ n - y + x : Nat) : Int) % ((2 ^ n : Nat) : Int) := by
    rw [Nat.cast_add, Nat.cast_sub hb.le,
      show ((2 ^ n : Nat) : Int) - y + x = (x - y - (0 : Nat)) + ((2 ^ n : Nat) : Int) by push_cast; ring]
    simp
  rw [h, ← Int.natCast_mod]
  rfl

/-- A parity is even when the number of ones is (00_scope.md R11). -/
theorem parityEven_eq_count : ∀ x : Byte,
    parityEven x = decide ((List.range 8).countP (fun k => x.getLsbD k) % 2 = 0) := by decide

end Sys2Proof.Machine
end

