-- ==== Sys2Proof/Laws/Changed.lean ====
section
/-!
SUPPORT. Laws/Changed.lean: what each update of the state leaves alone, in the words of the statements (`OnlyChanged`), and how
two updates in a row go together.
-/

namespace Sys2Proof.Machine

open Sys2Proof

/-- SYS is outside the flags. -/
theorem OnlyChanged.sys {ds : List RegCode} {bs : List Word} {f : FlagWrite} {s t : State}
    (h : OnlyChanged ds bs f s t) : t.sys = s.sys := by
  have hb := congrArg (fun x : Word => x.getLsbD 14) h.status
  simpa [State.sys] using hb

/-- Nothing changed. -/
theorem OnlyChanged.refl (s : State) : OnlyChanged [] [] {} s s where
  registers _ _ := rfl
  hiddenStackPointer := by split <;> rfl
  bytes _ _ _ := rfl
  carry := rfl
  zero := rfl
  sign := rfl
  overflow := rfl
  decimal := rfl
  halfCarry := rfl
  status := rfl
  pc := rfl
  psap := rfl
  refresh := rfl
  mo := rfl
  nmip := rfl
  halted := rfl
  inputs := rfl
  events := rfl
  clock := rfl

/-- Less may be claimed to be unchanged. -/
theorem OnlyChanged.mono {ds ds' : List RegCode} {bs bs' : List Word} {f : FlagWrite} {s t : State}
    (h : OnlyChanged ds bs f s t) (hd : ∀ q ∈ ds, q ∈ ds') (hb : ∀ a ∈ bs, a ∈ bs') : OnlyChanged ds' bs' f s t :=
  { h with
    registers := fun q hq => h.registers q fun hm => hq (hd q hm)
    bytes := fun sp a ha => h.bytes sp a fun hm => ha (hb a hm) }

/-- Two changes in a row, the first of which writes no flag. -/
theorem OnlyChanged.trans {ds es : List RegCode} {bs cs : List Word} {f : FlagWrite} {s t u : State}
    (h : OnlyChanged ds bs {} s t) (k : OnlyChanged es cs f t u) : OnlyChanged (ds ++ es) (bs ++ cs) f s u where
  registers q hq := by
    simp only [List.mem_append, not_or] at hq
    rw [k.registers q hq.2, h.registers q hq.1]
  hiddenStackPointer := by
    have h1 := h.hiddenStackPointer
    have k1 := k.hiddenStackPointer
    rw [h.sys] at k1
    split at h1
    · simp_all
    · simp_all
  bytes sp a ha := by
    simp only [List.mem_append, not_or] at ha
    rw [k.bytes sp a ha.2, h.bytes sp a ha.1]
  carry := k.carry.trans (by rw [h.carry]; rfl)
  zero := k.zero.trans (by rw [h.zero]; rfl)
  sign := k.sign.trans (by rw [h.sign]; rfl)
  overflow := k.overflow.trans (by rw [h.overflow]; rfl)
  decimal := k.decimal.trans (by rw [h.decimal]; rfl)
  halfCarry := k.halfCarry.trans (by rw [h.halfCarry]; rfl)
  status := k.status.trans h.status
  pc := k.pc.trans h.pc
  psap := k.psap.trans h.psap
  refresh := k.refresh.trans h.refresh
  mo := k.mo.trans h.mo
  nmip := k.nmip.trans h.nmip
  halted := k.halted.trans h.halted
  inputs := k.inputs.trans h.inputs
  events := k.events.trans h.events
  clock := k.clock.trans h.clock

/-- A write of flags. -/
theorem OnlyChanged.setFlags (s : State) (f : FlagWrite) : OnlyChanged [] [] f s (s.setFlags f) where
  registers q _ := s.setFlags_reg f q
  hiddenStackPointer := by split <;> rfl
  bytes _ _ _ := rfl
  carry := s.carry_setFlags f
  zero := s.zero_setFlags f
  sign := s.sign_setFlags f
  overflow := s.overflow_setFlags f
  decimal := s.decimal_setFlags f
  halfCarry := s.halfCarry_setFlags f
  status := FlagWrite.apply_other f s.fcw
  pc := rfl
  psap := rfl
  refresh := rfl
  mo := rfl
  nmip := rfl
  halted := rfl
  inputs := rfl
  events := rfl
  clock := rfl

/-- The two stack pointers after a register write: the one that has no name in this mode stays. -/
theorem State.setReg_hidden (s : State) (r : RegCode) (v : Word) :
    if s.sys then (s.setReg r v).nsp = s.nsp else (s.setReg r v).regs[15] = s.regs[15] := by
  split
  · exact s.setReg_nsp r v ‹_›
  · rename_i hs
    have hs : s.sys = false := by simpa using hs
    by_cases hr : r = 0xF#4
    · simp [State.setReg, hr, hs]
    · have hn : r.toNat ≠ 15 := fun e => hr (BitVec.eq_of_toNat_eq e)
      simp [State.setReg, hr, hn]

/-- A write of a word register. -/
theorem OnlyChanged.setReg (s : State) (r : RegCode) (v : Word) : OnlyChanged [r] [] {} s (s.setReg r v) where
  registers q hq := State.reg_setReg_other s v (by simpa using hq)
  hiddenStackPointer := s.setReg_hidden r v
  bytes sp a _ := by simp
  carry := by simp [State.carry]
  zero := by simp [State.zero]
  sign := by simp [State.sign]
  overflow := by simp [State.overflow]
  decimal := by simp [State.decimal]
  halfCarry := by simp [State.halfCarry]
  status := by simp
  pc := by simp
  psap := by simp
  refresh := by simp
  mo := by simp
  nmip := by simp
  halted := by simp
  inputs := by simp
  events := by simp
  clock := by simp

/-- A write of a byte register. -/
theorem OnlyChanged.setByteReg (s : State) (c : RegCode) (v : Byte) :
    OnlyChanged [byteHome c] [] {} s (s.setByteReg c v) := OnlyChanged.setReg s _ _

/-- A write of a pair. -/
theorem OnlyChanged.setPairValue (s : State) (c : RegCode) (v : Long) :
    OnlyChanged [c, c + 1] [] {} s (s.setPairValue c v) :=
  (OnlyChanged.setReg s c _).trans (OnlyChanged.setReg _ (c + 1) _)

/-- A write of a byte of memory. -/
theorem OnlyChanged.writeByte (s : State) (sp : Space) (a : Word) (v : Byte) :
    OnlyChanged [] [a] {} s (s.writeByte sp a v) where
  registers q _ := s.writeByte_reg sp a v q
  hiddenStackPointer := by split <;> rfl
  bytes sq b hb := State.readByte_writeByte_other s sp sq v (by simpa using hb)
  carry := rfl
  zero := rfl
  sign := rfl
  overflow := rfl
  decimal := rfl
  halfCarry := rfl
  status := rfl
  pc := rfl
  psap := rfl
  refresh := rfl
  mo := rfl
  nmip := rfl
  halted := rfl
  inputs := rfl
  events := rfl
  clock := rfl

/-- A store of a word. -/
theorem OnlyChanged.putWord (s : State) (sp : Space) (a v : Word) :
    OnlyChanged [] [a, a + 1] {} s (s.putWord sp a v) :=
  (OnlyChanged.writeByte s sp a _).trans (OnlyChanged.writeByte _ sp (a + 1) _)

/-- A change followed by a write of flags. -/
theorem OnlyChanged.withFlags {ds : List RegCode} {bs : List Word} {s t : State} (h : OnlyChanged ds bs {} s t)
    (f : FlagWrite) : OnlyChanged ds bs f s (t.setFlags f) := by
  simpa using h.trans (OnlyChanged.setFlags t f)

/-! The results of the writes, in the words of the statements. -/

/-- A write of a word register and of flags. -/
theorem wordRegister_set (s : State) (d : RegCode) (v : Word) (f : FlagWrite) :
    WordRegister d v f s ((s.setReg d v).setFlags f) :=
  ⟨by simp, (OnlyChanged.setReg s d v).withFlags f⟩

/-- A write of a word register. -/
theorem wordRegister_setReg (s : State) (d : RegCode) (v : Word) : WordRegister d v {} s (s.setReg d v) :=
  ⟨by simp, OnlyChanged.setReg s d v⟩

/-- A byte register does not see a write of flags. -/
@[simp] theorem State.setFlags_byteReg (s : State) (f : FlagWrite) (c : RegCode) :
    (s.setFlags f).byteReg c = s.byteReg c := by
  simp only [State.byteReg, State.setFlags_reg]

/-- A write of a byte register and of flags. -/
theorem byteRegister_set (s : State) (d : RegCode) (v : Byte) (f : FlagWrite) :
    ByteRegister d v f s ((s.setByteReg d v).setFlags f) :=
  ⟨by simp, fun e he => by rw [State.setFlags_byteReg]; exact State.byteReg_setByteReg_other s v he,
    (OnlyChanged.setByteReg s d v).withFlags f⟩

/-- A write of a byte register. -/
theorem byteRegister_setByteReg (s : State) (d : RegCode) (v : Byte) : ByteRegister d v {} s (s.setByteReg d v) :=
  ⟨by simp, fun _ he => State.byteReg_setByteReg_other s v he, OnlyChanged.setByteReg s d v⟩

/-- The two registers after a write of a pair. -/
theorem State.setPairValue_regs_of (s : State) (c : RegCode) (v : Long) :
    (s.setPairValue c v).reg c = v.extractLsb' 16 16 ∧ (s.setPairValue c v).reg (c + 1) = v.extractLsb' 0 16 := by
  unfold State.setPairValue
  exact ⟨by rw [State.reg_setReg_other _ _ (succ_ne_self c).symm]; simp, by simp⟩

/-- A write of a pair and of flags. -/
theorem longRegister_set (s : State) (d : RegCode) (v : Long) (f : FlagWrite) :
    LongRegister d v f s ((s.setPairValue d v).setFlags f) :=
  ⟨by simpa using (s.setPairValue_regs_of d v).1, by simpa using (s.setPairValue_regs_of d v).2,
    (OnlyChanged.setPairValue s d v).withFlags f⟩

/-- A write of a pair. -/
theorem longRegister_setPairValue (s : State) (d : RegCode) (v : Long) :
    LongRegister d v {} s (s.setPairValue d v) :=
  ⟨(s.setPairValue_regs_of d v).1, (s.setPairValue_regs_of d v).2, OnlyChanged.setPairValue s d v⟩

/-- A byte store and a write of flags. -/
theorem byteStored_set (s : State) (l : Space × Word) (v : Byte) (f : FlagWrite) :
    ByteStored l v f s ((s.writeByte l.1 l.2 v).setFlags f) :=
  ⟨by simp, (OnlyChanged.writeByte s l.1 l.2 v).withFlags f⟩

/-- A byte store. -/
theorem byteStored_writeByte (s : State) (l : Space × Word) (v : Byte) : ByteStored l v {} s (s.writeByte l.1 l.2 v) :=
  ⟨by simp, OnlyChanged.writeByte s l.1 l.2 v⟩

/-- The two bytes after a word store. -/
theorem State.putWord_bytes (s : State) (sp sq : Space) (a v : Word) :
    (s.putWord sp a v).readByte sq a = v.extractLsb' 8 8 ∧ (s.putWord sp a v).readByte sq (a + 1) = v.extractLsb' 0 8 := by
  unfold State.putWord
  exact ⟨by rw [State.readByte_writeByte_other _ _ _ _ (next_ne_self a).symm]; simp, by simp⟩

/-- A word store and a write of flags. -/
theorem wordStored_set (s : State) (l : Space × Word) (v : Word) (f : FlagWrite) :
    WordStored l v f s ((s.putWord l.1 l.2 v).setFlags f) :=
  ⟨by simpa using (s.putWord_bytes l.1 l.1 l.2 v).1, by simpa using (s.putWord_bytes l.1 l.1 l.2 v).2,
    (OnlyChanged.putWord s l.1 l.2 v).withFlags f⟩

/-- A word store. -/
theorem wordStored_putWord (s : State) (l : Space × Word) (v : Word) : WordStored l v {} s (s.putWord l.1 l.2 v) :=
  ⟨(s.putWord_bytes l.1 l.1 l.2 v).1, (s.putWord_bytes l.1 l.1 l.2 v).2, OnlyChanged.putWord s l.1 l.2 v⟩

/-- The four bytes of a long are those of its two words. -/
theorem long_bytes (v : Long) :
    (v.extractLsb' 16 16).extractLsb' 8 8 = v.extractLsb' 24 8 ∧
      (v.extractLsb' 16 16).extractLsb' 0 8 = v.extractLsb' 16 8 ∧
      (v.extractLsb' 0 16).extractLsb' 8 8 = v.extractLsb' 8 8 ∧
      (v.extractLsb' 0 16).extractLsb' 0 8 = v.extractLsb' 0 8 := by
  refine ⟨?_, ?_, ?_, ?_⟩ <;>
  · apply BitVec.eq_of_getLsbD_eq
    intro i hi
    simp only [BitVec.getLsbD_extractLsb']
    interval_cases i <;> rfl

/-- The four words of a quadruple are those of its two longs. -/
theorem quad_words (v : Quad) :
    (v.extractLsb' 32 32).extractLsb' 16 16 = v.extractLsb' 48 16 ∧
      (v.extractLsb' 32 32).extractLsb' 0 16 = v.extractLsb' 32 16 ∧
      (v.extractLsb' 0 32).extractLsb' 16 16 = v.extractLsb' 16 16 ∧
      (v.extractLsb' 0 32).extractLsb' 0 16 = v.extractLsb' 0 16 := by
  refine ⟨?_, ?_, ?_, ?_⟩ <;>
  · apply BitVec.eq_of_getLsbD_eq
    intro i hi
    simp only [BitVec.getLsbD_extractLsb']
    interval_cases i <;> rfl

/-- The two words of a long store. -/
def State.putLong (s : State) (sp : Space) (a : Word) (v : Long) : State :=
  (s.putWord sp a (v.extractLsb' 16 16)).putWord sp (a + 2) (v.extractLsb' 0 16)

/-- A store of a long. -/
theorem OnlyChanged.putLong (s : State) (sp : Space) (a : Word) (v : Long) :
    OnlyChanged [] [a, a + 1, a + 2, a + 3] {} s (s.putLong sp a v) := by
  have e : a + 2 + 1 = a + 3 := by bv_omega
  have h := (OnlyChanged.putWord s sp a (v.extractLsb' 16 16)).trans
    (OnlyChanged.putWord _ sp (a + 2) (v.extractLsb' 0 16))
  rw [e] at h
  exact h

/-- A long store. -/
theorem longStored_putLong (s : State) (l : Space × Word) (v : Long) : LongStored l v {} s (s.putLong l.1 l.2 v) := by
  have e : l.2 + 2 + 1 = l.2 + 3 := by bv_omega
  have h0 : l.2 ≠ l.2 + 2 := by bv_omega
  have h1 : l.2 ≠ l.2 + 3 := by bv_omega
  have h2 : l.2 + 1 ≠ l.2 + 2 := by bv_omega
  have h3 : l.2 + 1 ≠ l.2 + 3 := by bv_omega
  obtain ⟨b3, b2, b1, b0⟩ := long_bytes v
  refine ⟨?_, ?_, ?_, ?_, OnlyChanged.putLong s l.1 l.2 v⟩ <;> unfold State.putLong
  · rw [State.readByte_putWord_other _ _ _ _ h0 (e ▸ h1), (State.putWord_bytes _ _ _ _ _).1, b3]
  · rw [State.readByte_putWord_other _ _ _ _ h2 (e ▸ h3), (State.putWord_bytes _ _ _ _ _).2, b2]
  · rw [(State.putWord_bytes _ _ _ _ _).1, b1]
  · rw [← e, (State.putWord_bytes _ _ _ _ _).2, b0]

/-- The registers of a quadruple are four different ones. -/
theorem quad_apart (d : RegCode) : d ≠ d + 1 ∧ d ≠ d + 2 ∧ d ≠ d + 3 ∧ d + 1 ≠ d + 2 ∧ d + 1 ≠ d + 3 ∧
    d + 2 + 1 = d + 3 := by revert d; decide

/-- A write of a quadruple and of flags. -/
theorem quadRegister_set (s : State) (d : RegCode) (v : Quad) (f : FlagWrite) :
    QuadRegister d v f s
      (((s.setPairValue d (v.extractLsb' 32 32)).setPairValue (d + 2) (v.extractLsb' 0 32)).setFlags f) := by
  obtain ⟨-, h2, h3, h12, h13, e⟩ := quad_apart d
  obtain ⟨w3, w2, w1, w0⟩ := quad_words v
  have hi := State.setPairValue_regs_of s d (v.extractLsb' 32 32)
  have lo := State.setPairValue_regs_of (s.setPairValue d (v.extractLsb' 32 32)) (d + 2) (v.extractLsb' 0 32)
  rw [e] at lo
  refine ⟨?_, ?_, ?_, ?_, ?_⟩
  · rw [State.setFlags_reg, State.reg_setPairValue_other _ _ h2 (e ▸ h3), hi.1, w3]
  · rw [State.setFlags_reg, State.reg_setPairValue_other _ _ h12 (e ▸ h13), hi.2, w2]
  · rw [State.setFlags_reg, lo.1, w1]
  · rw [State.setFlags_reg, lo.2, w0]
  · have h := (OnlyChanged.setPairValue s d (v.extractLsb' 32 32)).trans
      (OnlyChanged.setPairValue _ (d + 2) (v.extractLsb' 0 32))
    rw [e] at h
    exact h.withFlags f

end Sys2Proof.Machine
end

