-- ==== Sys2Proof/Laws/Decode.lean ====
section
/-!
SUPPORT. Laws/Decode.lean: the fields of a word that was put together from fields, the condition codes both ways, and when a
first word is not in the trapped list (30_encoding.md R102 to R105, R125, R140).
-/

namespace Sys2Proof

/-! The bits of a first word, of a compact first word and of a second word. -/

theorem word1_getLsbD (m : BitVec 2) (op : BitVec 6) (n1 n0 : Nibble) (i : Nat) :
    (word1 m op n1 n0).getLsbD i = if i < 4 then n0.getLsbD i else if i < 8 then n1.getLsbD (i - 4) else
      if i < 14 then op.getLsbD (i - 8) else m.getLsbD (i - 14) := by
  refine (BitVec.getLsbD_append (x := m ++ op ++ n1) (y := n0) (i := i)).trans ?_
  rw [BitVec.getLsbD_append, BitVec.getLsbD_append]
  grind

theorem compact_getLsbD (k : BitVec 2) (n2 n1 n0 : Nibble) (i : Nat) :
    (compact k n2 n1 n0).getLsbD i = if i < 4 then n0.getLsbD i else if i < 8 then n1.getLsbD (i - 4) else
      if i < 12 then n2.getLsbD (i - 8) else if i < 14 then k.getLsbD (i - 12) else (0b11#2).getLsbD (i - 14) := by
  refine (BitVec.getLsbD_append (x := 0b11#2 ++ k ++ n2 ++ n1) (y := n0) (i := i)).trans ?_
  rw [BitVec.getLsbD_append, BitVec.getLsbD_append, BitVec.getLsbD_append]
  grind

theorem word2_getLsbD (n2 n1 n0 : Nibble) (i : Nat) :
    (word2 n2 n1 n0).getLsbD i = if i < 4 then n0.getLsbD i else if i < 8 then n1.getLsbD (i - 4) else
      if i < 12 then n2.getLsbD (i - 8) else (0x0#4).getLsbD (i - 12) := by
  refine (BitVec.getLsbD_append (x := 0x0#4 ++ n2 ++ n1) (y := n0) (i := i)).trans ?_
  rw [BitVec.getLsbD_append, BitVec.getLsbD_append]
  grind

/-- A field is the part it was put together from when it has the part's bits. -/
theorem extract_eq_of_bits {w : Word} {k n : Nat} {v : BitVec n} (h : ∀ i < n, w.getLsbD (k + i) = v.getLsbD i) :
    w.extractLsb' k n = v := by
  apply BitVec.eq_of_getLsbD_eq
  intro i hi
  rw [BitVec.getLsbD_extractLsb', h i hi]
  simp [hi]

/-! The fields of such words. -/

@[simp] theorem modeOf_word1 (m : BitVec 2) (op : BitVec 6) (n1 n0 : Nibble) : modeOf (word1 m op n1 n0) = m :=
  extract_eq_of_bits fun i hi => by interval_cases i <;> rw [word1_getLsbD] <;> rfl

@[simp] theorem opOf_word1 (m : BitVec 2) (op : BitVec 6) (n1 n0 : Nibble) : opOf (word1 m op n1 n0) = op :=
  extract_eq_of_bits fun i hi => by interval_cases i <;> rw [word1_getLsbD] <;> rfl

@[simp] theorem n1Of_word1 (m : BitVec 2) (op : BitVec 6) (n1 n0 : Nibble) : n1Of (word1 m op n1 n0) = n1 :=
  extract_eq_of_bits fun i hi => by interval_cases i <;> rw [word1_getLsbD] <;> rfl

@[simp] theorem n0Of_word1 (m : BitVec 2) (op : BitVec 6) (n1 n0 : Nibble) : n0Of (word1 m op n1 n0) = n0 :=
  extract_eq_of_bits fun i hi => by interval_cases i <;> rw [word1_getLsbD] <;> rfl

@[simp] theorem modeOf_compact (k : BitVec 2) (n2 n1 n0 : Nibble) : modeOf (compact k n2 n1 n0) = 0b11#2 :=
  extract_eq_of_bits fun i hi => by interval_cases i <;> rw [compact_getLsbD] <;> rfl

@[simp] theorem kindOf_compact (k : BitVec 2) (n2 n1 n0 : Nibble) : kindOf (compact k n2 n1 n0) = k :=
  extract_eq_of_bits fun i hi => by interval_cases i <;> rw [compact_getLsbD] <;> rfl

@[simp] theorem n2Of_compact (k : BitVec 2) (n2 n1 n0 : Nibble) : n2Of (compact k n2 n1 n0) = n2 :=
  extract_eq_of_bits fun i hi => by interval_cases i <;> rw [compact_getLsbD] <;> rfl

@[simp] theorem n1Of_compact (k : BitVec 2) (n2 n1 n0 : Nibble) : n1Of (compact k n2 n1 n0) = n1 :=
  extract_eq_of_bits fun i hi => by interval_cases i <;> rw [compact_getLsbD] <;> rfl

@[simp] theorem n0Of_compact (k : BitVec 2) (n2 n1 n0 : Nibble) : n0Of (compact k n2 n1 n0) = n0 :=
  extract_eq_of_bits fun i hi => by interval_cases i <;> rw [compact_getLsbD] <;> rfl

@[simp] theorem n2Of_word2 (n2 n1 n0 : Nibble) : n2Of (word2 n2 n1 n0) = n2 :=
  extract_eq_of_bits fun i hi => by interval_cases i <;> rw [word2_getLsbD] <;> rfl

@[simp] theorem n1Of_word2 (n2 n1 n0 : Nibble) : n1Of (word2 n2 n1 n0) = n1 :=
  extract_eq_of_bits fun i hi => by interval_cases i <;> rw [word2_getLsbD] <;> rfl

@[simp] theorem n0Of_word2 (n2 n1 n0 : Nibble) : n0Of (word2 n2 n1 n0) = n0 :=
  extract_eq_of_bits fun i hi => by interval_cases i <;> rw [word2_getLsbD] <;> rfl

/-! Condition codes. -/

@[simp] theorem Cond.ofCode_code (cc : Cond) : Cond.ofCode cc.code = cc := by cases cc <;> rfl

@[simp] theorem Cond.code_ofCode (n : Nibble) : (Cond.ofCode n).code = n := by revert n; decide

/-! The trapped list. No row looks at bits 7:4 of the first word, and no row has mode bits 11. -/

theorem trappedList_mask : ∀ row ∈ trappedListA ++ trappedListB, row.mask = 0xFF0F#16 &&& row.mask := by decide

theorem trappedList_mode :
    ∀ row ∈ trappedListA ++ trappedListB, 0xC000#16 &&& row.mask ≠ 0xC000#16 &&& row.pattern := by decide

/-- Whether a first word is in the list does not depend on its bits 7:4. -/
theorem trapKind_and (w : Word) : trapKind w = trapKind (w &&& 0xFF0F#16) := by
  unfold trapKind
  congr 1
  apply List.find?_congr
  intro row h
  conv_lhs => rw [trappedList_mask row h]
  rw [BitVec.and_assoc]

/-- A first word without its bits 7:4. -/
theorem word1_and (m : BitVec 2) (op : BitVec 6) (n1 n0 : Nibble) :
    word1 m op n1 n0 &&& 0xFF0F#16 = word1 m op 0x0#4 n0 := by
  apply BitVec.eq_of_getLsbD_eq
  intro i hi
  rw [BitVec.getLsbD_and, word1_getLsbD, word1_getLsbD]
  interval_cases i <;> simp

/-- The bits 7:4 of a first word may be read as 0000. -/
theorem trapKind_word1 (m : BitVec 2) (op : BitVec 6) (n1 n0 : Nibble) :
    trapKind (word1 m op n1 n0) = trapKind (word1 m op 0x0#4 n0) := by
  rw [trapKind_and, word1_and]

/-- When a first word is no trapped instruction. -/
theorem trapInstr_word1 {m : BitVec 2} {op : BitVec 6} {n0 : Nibble} (n1 : Nibble)
    (h : trapKind (word1 m op 0x0#4 n0) = none) : trapInstr (word1 m op n1 n0) = none := by
  simp [trapInstr, trapKind_word1 m op n1 n0, h]

/-- No word of the compact format is in the list. -/
theorem trapKind_compact (k : BitVec 2) (n2 n1 n0 : Nibble) : trapKind (compact k n2 n1 n0) = none := by
  simp only [trapKind, Option.map_eq_none_iff, List.find?_eq_none, beq_iff_eq]
  intro row h e
  refine trappedList_mode row h ?_
  rw [← e, ← BitVec.and_assoc]
  congr 1
  apply BitVec.eq_of_getLsbD_eq
  intro i hi
  rw [BitVec.getLsbD_and, compact_getLsbD]
  interval_cases i <;> simp

@[simp] theorem trapInstr_compact (k : BitVec 2) (n2 n1 n0 : Nibble) : trapInstr (compact k n2 n1 n0) = none := by
  simp [trapInstr, trapKind_compact]

end Sys2Proof
end

