-- ==== Sys2Proof/Laws/PerInstr.lean ====
section
/-!
SUPPORT. Laws/PerInstr.lean: what is shown constructor by constructor. EncodeLength: an instruction is one to three words
(30_encoding.md R101).
-/

namespace Sys2Proof.Laws

open Sys2Proof

/-- A list of words as long as an instruction can be. -/
def InstructionLength (ws : List Word) : Prop := 1 ≤ ws.length ∧ ws.length ≤ 3

theorem words_length (m : Mem) : m.words.length ≤ 1 := by cases m <;> simp [Mem.words]

theorem encodeMem_length (op : BitVec 6) (m : Mem) (n0 : Nibble) (ws : List Word) (h : ws.length ≤ 1) :
    InstructionLength (encodeMem op m n0 ++ ws) := by
  have := words_length m
  simp [InstructionLength, encodeMem]; omega

theorem encodeMem_length_nil (op : BitVec 6) (m : Mem) (n0 : Nibble) : InstructionLength (encodeMem op m n0) := by
  have := words_length m
  simp [InstructionLength, encodeMem]; omega

theorem encodeDst_length (op : BitVec 6) (dst : Dst) (n0 : Nibble) : InstructionLength (encodeDst op dst n0) := by
  cases dst with
  | reg d => simp [InstructionLength, encodeDst]
  | mem m => exact encodeMem_length_nil op m n0

theorem encodeStack_length (op : BitVec 6) (sp : RegCode) (o : Dst) : InstructionLength (encodeStack op sp o) := by
  cases o with
  | reg d => simp [InstructionLength, encodeStack]
  | mem m => have := words_length m; simp [InstructionLength, encodeStack]; omega

theorem encodeSrc8_length (op : BitVec 6) (src : Src 8) (d : Nibble) : InstructionLength (encodeSrc8 op src d) := by
  cases src with
  | mem m => exact encodeMem_length_nil op m d
  | _ => simp [InstructionLength, encodeSrc8]

theorem encodeSrc16_length (op : BitVec 6) (src : Src 16) (d : Nibble) : InstructionLength (encodeSrc16 op src d) := by
  cases src with
  | mem m => exact encodeMem_length_nil op m d
  | _ => simp [InstructionLength, encodeSrc16]

theorem encodeSrc32_length (op : BitVec 6) (src : Src 32) (d : Nibble) : InstructionLength (encodeSrc32 op src d) := by
  cases src with
  | mem m => exact encodeMem_length_nil op m d
  | _ => simp [InstructionLength, encodeSrc32]

theorem encodeLd8_length (op bop : BitVec 6) (src : LdSrc 8) (d : Nibble) :
    InstructionLength (encodeLd8 op bop src d) := by
  cases src with
  | mem m => exact encodeMem_length_nil op m d
  | _ => simp [InstructionLength, encodeLd8]

theorem encodeLd16_length (op bop : BitVec 6) (src : LdSrc 16) (d : Nibble) :
    InstructionLength (encodeLd16 op bop src d) := by
  cases src with
  | mem m => exact encodeMem_length_nil op m d
  | _ => simp [InstructionLength, encodeLd16]

theorem encodeLd32_length (op bop : BitVec 6) (src : LdSrc 32) (d : Nibble) :
    InstructionLength (encodeLd32 op bop src d) := by
  cases src with
  | mem m => exact encodeMem_length_nil op m d
  | _ => simp [InstructionLength, encodeLd32]

theorem encodeLdDst_length (op bop : BitVec 6) (dst : LdDst) (s : Nibble) :
    InstructionLength (encodeLdDst op bop dst s) := by
  cases dst with
  | mem m => exact encodeMem_length_nil op m s
  | _ => simp [InstructionLength, encodeLdDst]

theorem encodeLda_length (src : LdaSrc) (d : Nibble) : InstructionLength (encodeLda src d) := by
  cases src <;> simp [InstructionLength, encodeLda]

theorem encodeLdm_length (m : Mem) (n0 : Nibble) (v : Word) : InstructionLength (encodeLdm m n0 v) := by
  have := words_length m
  simp [InstructionLength, encodeLdm]; omega

theorem encodeIn_length (iop dop : BitVec 6) (p : Port) (d : Nibble) : InstructionLength (encodeIn iop dop p d) := by
  cases p <;> simp [InstructionLength, encodeIn]

theorem encodeOut_length (iop dop : BitVec 6) (p : Port) (s : Nibble) : InstructionLength (encodeOut iop dop p s) := by
  cases p <;> simp [InstructionLength, encodeOut]

theorem one_length (a : Word) : InstructionLength [a] := by simp [InstructionLength]

theorem two_length (a b : Word) : InstructionLength [a, b] := by simp [InstructionLength]

/-- The words of the instruction are one to three. -/
def EncodeLength.Statement (i : Instr) : Prop := InstructionLength (encode i)

theorem EncodeLength.adc (d s : RegCode) : EncodeLength.Statement (.adc d s) := one_length _

theorem EncodeLength.adcb (d s : RegCode) : EncodeLength.Statement (.adcb d s) := one_length _

theorem EncodeLength.add (d : RegCode) (src : Src 16) : EncodeLength.Statement (.add d src) := encodeSrc16_length _ _ _

theorem EncodeLength.addb (d : RegCode) (src : Src 8) : EncodeLength.Statement (.addb d src) := encodeSrc8_length _ _ _

theorem EncodeLength.addl (d : RegCode) (src : Src 32) : EncodeLength.Statement (.addl d src) := encodeSrc32_length _ _ _

theorem EncodeLength.cp (d : RegCode) (src : Src 16) : EncodeLength.Statement (.cp d src) := encodeSrc16_length _ _ _

theorem EncodeLength.cpb (d : RegCode) (src : Src 8) : EncodeLength.Statement (.cpb d src) := encodeSrc8_length _ _ _

theorem EncodeLength.cpl (d : RegCode) (src : Src 32) : EncodeLength.Statement (.cpl d src) := encodeSrc32_length _ _ _

theorem EncodeLength.cpMem (m : Mem) (data : Word) : EncodeLength.Statement (.cpMem m data) := encodeMem_length _ _ _ _ (by simp)

theorem EncodeLength.cpbMem (m : Mem) (data : Byte) : EncodeLength.Statement (.cpbMem m data) := encodeMem_length _ _ _ _ (by simp)

theorem EncodeLength.dab (d : RegCode) : EncodeLength.Statement (.dab d) := one_length _

theorem EncodeLength.dec (dst : Dst) (n : Nibble) : EncodeLength.Statement (.dec dst n) := encodeDst_length _ _ _

theorem EncodeLength.decb (dst : Dst) (n : Nibble) : EncodeLength.Statement (.decb dst n) := encodeDst_length _ _ _

theorem EncodeLength.div (d : RegCode) (src : Src 16) : EncodeLength.Statement (.div d src) := encodeSrc16_length _ _ _

theorem EncodeLength.divl (d : RegCode) (src : Src 32) : EncodeLength.Statement (.divl d src) := encodeSrc32_length _ _ _

theorem EncodeLength.exts (d : RegCode) : EncodeLength.Statement (.exts d) := one_length _

theorem EncodeLength.extsb (d : RegCode) : EncodeLength.Statement (.extsb d) := one_length _

theorem EncodeLength.extsl (d : RegCode) : EncodeLength.Statement (.extsl d) := one_length _

theorem EncodeLength.inc (dst : Dst) (n : Nibble) : EncodeLength.Statement (.inc dst n) := encodeDst_length _ _ _

theorem EncodeLength.incb (dst : Dst) (n : Nibble) : EncodeLength.Statement (.incb dst n) := encodeDst_length _ _ _

theorem EncodeLength.mult (d : RegCode) (src : Src 16) : EncodeLength.Statement (.mult d src) := encodeSrc16_length _ _ _

theorem EncodeLength.multl (d : RegCode) (src : Src 32) : EncodeLength.Statement (.multl d src) := encodeSrc32_length _ _ _

theorem EncodeLength.neg (dst : Dst) : EncodeLength.Statement (.neg dst) := encodeDst_length _ _ _

theorem EncodeLength.negb (dst : Dst) : EncodeLength.Statement (.negb dst) := encodeDst_length _ _ _

theorem EncodeLength.sbc (d s : RegCode) : EncodeLength.Statement (.sbc d s) := one_length _

theorem EncodeLength.sbcb (d s : RegCode) : EncodeLength.Statement (.sbcb d s) := one_length _

theorem EncodeLength.sub (d : RegCode) (src : Src 16) : EncodeLength.Statement (.sub d src) := encodeSrc16_length _ _ _

theorem EncodeLength.subb (d : RegCode) (src : Src 8) : EncodeLength.Statement (.subb d src) := encodeSrc8_length _ _ _

theorem EncodeLength.subl (d : RegCode) (src : Src 32) : EncodeLength.Statement (.subl d src) := encodeSrc32_length _ _ _

theorem EncodeLength.and (d : RegCode) (src : Src 16) : EncodeLength.Statement (.and d src) := encodeSrc16_length _ _ _

theorem EncodeLength.andb (d : RegCode) (src : Src 8) : EncodeLength.Statement (.andb d src) := encodeSrc8_length _ _ _

theorem EncodeLength.or (d : RegCode) (src : Src 16) : EncodeLength.Statement (.or d src) := encodeSrc16_length _ _ _

theorem EncodeLength.orb (d : RegCode) (src : Src 8) : EncodeLength.Statement (.orb d src) := encodeSrc8_length _ _ _

theorem EncodeLength.xor (d : RegCode) (src : Src 16) : EncodeLength.Statement (.xor d src) := encodeSrc16_length _ _ _

theorem EncodeLength.xorb (d : RegCode) (src : Src 8) : EncodeLength.Statement (.xorb d src) := encodeSrc8_length _ _ _

theorem EncodeLength.com (dst : Dst) : EncodeLength.Statement (.com dst) := encodeDst_length _ _ _

theorem EncodeLength.comb (dst : Dst) : EncodeLength.Statement (.comb dst) := encodeDst_length _ _ _

theorem EncodeLength.bit (dst : Dst) (b : Nibble) : EncodeLength.Statement (.bit dst b) := encodeDst_length _ _ _

theorem EncodeLength.bitb (dst : Dst) (b : BitVec 3) : EncodeLength.Statement (.bitb dst b) := encodeDst_length _ _ _

theorem EncodeLength.bitDyn (d s : RegCode) : EncodeLength.Statement (.bitDyn d s) := two_length _ _

theorem EncodeLength.bitbDyn (d s : RegCode) : EncodeLength.Statement (.bitbDyn d s) := two_length _ _

theorem EncodeLength.res (dst : Dst) (b : Nibble) : EncodeLength.Statement (.res dst b) := encodeDst_length _ _ _

theorem EncodeLength.resb (dst : Dst) (b : BitVec 3) : EncodeLength.Statement (.resb dst b) := encodeDst_length _ _ _

theorem EncodeLength.resDyn (d s : RegCode) : EncodeLength.Statement (.resDyn d s) := two_length _ _

theorem EncodeLength.resbDyn (d s : RegCode) : EncodeLength.Statement (.resbDyn d s) := two_length _ _

theorem EncodeLength.set (dst : Dst) (b : Nibble) : EncodeLength.Statement (.set dst b) := encodeDst_length _ _ _

theorem EncodeLength.setb (dst : Dst) (b : BitVec 3) : EncodeLength.Statement (.setb dst b) := encodeDst_length _ _ _

theorem EncodeLength.setDyn (d s : RegCode) : EncodeLength.Statement (.setDyn d s) := two_length _ _

theorem EncodeLength.setbDyn (d s : RegCode) : EncodeLength.Statement (.setbDyn d s) := two_length _ _

theorem EncodeLength.comflg (czsv : Nibble) : EncodeLength.Statement (.comflg czsv) := one_length _

theorem EncodeLength.resflg (czsv : Nibble) : EncodeLength.Statement (.resflg czsv) := one_length _

theorem EncodeLength.setflg (czsv : Nibble) : EncodeLength.Statement (.setflg czsv) := one_length _

theorem EncodeLength.tcc (cc : Cond) (d : RegCode) : EncodeLength.Statement (.tcc cc d) := one_length _

theorem EncodeLength.tccb (cc : Cond) (d : RegCode) : EncodeLength.Statement (.tccb cc d) := one_length _

theorem EncodeLength.test (dst : Dst) : EncodeLength.Statement (.test dst) := encodeDst_length _ _ _

theorem EncodeLength.testb (dst : Dst) : EncodeLength.Statement (.testb dst) := encodeDst_length _ _ _

theorem EncodeLength.testl (dst : Dst) : EncodeLength.Statement (.testl dst) := encodeDst_length _ _ _

theorem EncodeLength.tset (dst : Dst) : EncodeLength.Statement (.tset dst) := encodeDst_length _ _ _

theorem EncodeLength.tsetb (dst : Dst) : EncodeLength.Statement (.tsetb dst) := encodeDst_length _ _ _

theorem EncodeLength.call (m : Mem) : EncodeLength.Statement (.call m) := encodeMem_length_nil _ _ _

theorem EncodeLength.calr (disp : BitVec 12) : EncodeLength.Statement (.calr disp) := one_length _

theorem EncodeLength.djnz (r : RegCode) (disp : BitVec 7) : EncodeLength.Statement (.djnz r disp) := one_length _

theorem EncodeLength.dbjnz (r : RegCode) (disp : BitVec 7) : EncodeLength.Statement (.dbjnz r disp) := one_length _

theorem EncodeLength.jp (cc : Cond) (m : Mem) : EncodeLength.Statement (.jp cc m) := encodeMem_length_nil _ _ _

theorem EncodeLength.jr (cc : Cond) (disp : BitVec 8) : EncodeLength.Statement (.jr cc disp) := one_length _

theorem EncodeLength.ret (cc : Cond) : EncodeLength.Statement (.ret cc) := one_length _

theorem EncodeLength.clr (dst : Dst) : EncodeLength.Statement (.clr dst) := encodeDst_length _ _ _

theorem EncodeLength.clrb (dst : Dst) : EncodeLength.Statement (.clrb dst) := encodeDst_length _ _ _

theorem EncodeLength.ex (d : RegCode) (src : Dst) : EncodeLength.Statement (.ex d src) := encodeDst_length _ _ _

theorem EncodeLength.exb (d : RegCode) (src : Dst) : EncodeLength.Statement (.exb d src) := encodeDst_length _ _ _

theorem EncodeLength.ld (d : RegCode) (src : LdSrc 16) : EncodeLength.Statement (.ld d src) := encodeLd16_length _ _ _ _

theorem EncodeLength.ldb (d : RegCode) (src : LdSrc 8) : EncodeLength.Statement (.ldb d src) := encodeLd8_length _ _ _ _

theorem EncodeLength.ldl (d : RegCode) (src : LdSrc 32) : EncodeLength.Statement (.ldl d src) := encodeLd32_length _ _ _ _

theorem EncodeLength.ldbShort (d : RegCode) (data : Byte) : EncodeLength.Statement (.ldbShort d data) := one_length _

theorem EncodeLength.ldStore (dst : LdDst) (s : RegCode) : EncodeLength.Statement (.ldStore dst s) := encodeLdDst_length _ _ _ _

theorem EncodeLength.ldbStore (dst : LdDst) (s : RegCode) : EncodeLength.Statement (.ldbStore dst s) := encodeLdDst_length _ _ _ _

theorem EncodeLength.ldlStore (dst : LdDst) (s : RegCode) : EncodeLength.Statement (.ldlStore dst s) := encodeLdDst_length _ _ _ _

theorem EncodeLength.ldImm (m : Mem) (data : Word) : EncodeLength.Statement (.ldImm m data) := encodeMem_length _ _ _ _ (by simp)

theorem EncodeLength.ldbImm (m : Mem) (data : Byte) : EncodeLength.Statement (.ldbImm m data) := encodeMem_length _ _ _ _ (by simp)

theorem EncodeLength.lda (d : RegCode) (src : LdaSrc) : EncodeLength.Statement (.lda d src) := encodeLda_length _ _

theorem EncodeLength.ldar (d : RegCode) (disp : Word) : EncodeLength.Statement (.ldar d disp) := two_length _ _

theorem EncodeLength.ldk (d : RegCode) (data : Nibble) : EncodeLength.Statement (.ldk d data) := one_length _

theorem EncodeLength.ldm (d : RegCode) (m : Mem) (n : Nibble) : EncodeLength.Statement (.ldm d m n) := encodeLdm_length _ _ _

theorem EncodeLength.ldmStore (m : Mem) (s : RegCode) (n : Nibble) : EncodeLength.Statement (.ldmStore m s n) := encodeLdm_length _ _ _

theorem EncodeLength.ldr (d : RegCode) (disp : Word) : EncodeLength.Statement (.ldr d disp) := two_length _ _

theorem EncodeLength.ldrStore (disp : Word) (s : RegCode) : EncodeLength.Statement (.ldrStore disp s) := two_length _ _

theorem EncodeLength.ldrb (d : RegCode) (disp : Word) : EncodeLength.Statement (.ldrb d disp) := two_length _ _

theorem EncodeLength.ldrbStore (disp : Word) (s : RegCode) : EncodeLength.Statement (.ldrbStore disp s) := two_length _ _

theorem EncodeLength.ldrl (d : RegCode) (disp : Word) : EncodeLength.Statement (.ldrl d disp) := two_length _ _

theorem EncodeLength.ldrlStore (disp : Word) (s : RegCode) : EncodeLength.Statement (.ldrlStore disp s) := two_length _ _

theorem EncodeLength.pop (dst : Dst) (s : RegCode) : EncodeLength.Statement (.pop dst s) := encodeStack_length _ _ _

theorem EncodeLength.popl (dst : Dst) (s : RegCode) : EncodeLength.Statement (.popl dst s) := encodeStack_length _ _ _

theorem EncodeLength.push (d : RegCode) (src : Dst) : EncodeLength.Statement (.push d src) := encodeStack_length _ _ _

theorem EncodeLength.pushl (d : RegCode) (src : Dst) : EncodeLength.Statement (.pushl d src) := encodeStack_length _ _ _

theorem EncodeLength.pushImm (d : RegCode) (data : Word) : EncodeLength.Statement (.pushImm d data) := two_length _ _

theorem EncodeLength.rl (d : RegCode) (two : Bool) : EncodeLength.Statement (.rl d two) := one_length _

theorem EncodeLength.rlb (d : RegCode) (two : Bool) : EncodeLength.Statement (.rlb d two) := one_length _

theorem EncodeLength.rlc (d : RegCode) (two : Bool) : EncodeLength.Statement (.rlc d two) := one_length _

theorem EncodeLength.rlcb (d : RegCode) (two : Bool) : EncodeLength.Statement (.rlcb d two) := one_length _

theorem EncodeLength.rr (d : RegCode) (two : Bool) : EncodeLength.Statement (.rr d two) := one_length _

theorem EncodeLength.rrb (d : RegCode) (two : Bool) : EncodeLength.Statement (.rrb d two) := one_length _

theorem EncodeLength.rrc (d : RegCode) (two : Bool) : EncodeLength.Statement (.rrc d two) := one_length _

theorem EncodeLength.rrcb (d : RegCode) (two : Bool) : EncodeLength.Statement (.rrcb d two) := one_length _

theorem EncodeLength.rldb (d s : RegCode) : EncodeLength.Statement (.rldb d s) := one_length _

theorem EncodeLength.rrdb (d s : RegCode) : EncodeLength.Statement (.rrdb d s) := one_length _

theorem EncodeLength.sda (d s : RegCode) : EncodeLength.Statement (.sda d s) := two_length _ _

theorem EncodeLength.sdab (d s : RegCode) : EncodeLength.Statement (.sdab d s) := two_length _ _

theorem EncodeLength.sdal (d s : RegCode) : EncodeLength.Statement (.sdal d s) := two_length _ _

theorem EncodeLength.sdl (d s : RegCode) : EncodeLength.Statement (.sdl d s) := two_length _ _

theorem EncodeLength.sdlb (d s : RegCode) : EncodeLength.Statement (.sdlb d s) := two_length _ _

theorem EncodeLength.sdll (d s : RegCode) : EncodeLength.Statement (.sdll d s) := two_length _ _

theorem EncodeLength.sla (d : RegCode) (count : Word) : EncodeLength.Statement (.sla d count) := two_length _ _

theorem EncodeLength.slab (d : RegCode) (count : Byte) : EncodeLength.Statement (.slab d count) := two_length _ _

theorem EncodeLength.slal (d : RegCode) (count : Word) : EncodeLength.Statement (.slal d count) := two_length _ _

theorem EncodeLength.sll (d : RegCode) (count : Word) : EncodeLength.Statement (.sll d count) := two_length _ _

theorem EncodeLength.sllb (d : RegCode) (count : Byte) : EncodeLength.Statement (.sllb d count) := two_length _ _

theorem EncodeLength.slll (d : RegCode) (count : Word) : EncodeLength.Statement (.slll d count) := two_length _ _

theorem EncodeLength.sra (d : RegCode) (count : Word) : EncodeLength.Statement (.sra d count) := two_length _ _

theorem EncodeLength.srab (d : RegCode) (count : Byte) : EncodeLength.Statement (.srab d count) := two_length _ _

theorem EncodeLength.sral (d : RegCode) (count : Word) : EncodeLength.Statement (.sral d count) := two_length _ _

theorem EncodeLength.srl (d : RegCode) (count : Word) : EncodeLength.Statement (.srl d count) := two_length _ _

theorem EncodeLength.srlb (d : RegCode) (count : Byte) : EncodeLength.Statement (.srlb d count) := two_length _ _

theorem EncodeLength.srll (d : RegCode) (count : Word) : EncodeLength.Statement (.srll d count) := two_length _ _

theorem EncodeLength.cpd (d s r : RegCode) (cc : Cond) : EncodeLength.Statement (.cpd d s r cc) := two_length _ _

theorem EncodeLength.cpdb (d s r : RegCode) (cc : Cond) : EncodeLength.Statement (.cpdb d s r cc) := two_length _ _

theorem EncodeLength.cpdr (d s r : RegCode) (cc : Cond) : EncodeLength.Statement (.cpdr d s r cc) := two_length _ _

theorem EncodeLength.cpdrb (d s r : RegCode) (cc : Cond) : EncodeLength.Statement (.cpdrb d s r cc) := two_length _ _

theorem EncodeLength.cpi (d s r : RegCode) (cc : Cond) : EncodeLength.Statement (.cpi d s r cc) := two_length _ _

theorem EncodeLength.cpib (d s r : RegCode) (cc : Cond) : EncodeLength.Statement (.cpib d s r cc) := two_length _ _

theorem EncodeLength.cpir (d s r : RegCode) (cc : Cond) : EncodeLength.Statement (.cpir d s r cc) := two_length _ _

theorem EncodeLength.cpirb (d s r : RegCode) (cc : Cond) : EncodeLength.Statement (.cpirb d s r cc) := two_length _ _

theorem EncodeLength.cpsd (d s r : RegCode) (cc : Cond) : EncodeLength.Statement (.cpsd d s r cc) := two_length _ _

theorem EncodeLength.cpsdb (d s r : RegCode) (cc : Cond) : EncodeLength.Statement (.cpsdb d s r cc) := two_length _ _

theorem EncodeLength.cpsdr (d s r : RegCode) (cc : Cond) : EncodeLength.Statement (.cpsdr d s r cc) := two_length _ _

theorem EncodeLength.cpsdrb (d s r : RegCode) (cc : Cond) : EncodeLength.Statement (.cpsdrb d s r cc) := two_length _ _

theorem EncodeLength.cpsi (d s r : RegCode) (cc : Cond) : EncodeLength.Statement (.cpsi d s r cc) := two_length _ _

theorem EncodeLength.cpsib (d s r : RegCode) (cc : Cond) : EncodeLength.Statement (.cpsib d s r cc) := two_length _ _

theorem EncodeLength.cpsir (d s r : RegCode) (cc : Cond) : EncodeLength.Statement (.cpsir d s r cc) := two_length _ _

theorem EncodeLength.cpsirb (d s r : RegCode) (cc : Cond) : EncodeLength.Statement (.cpsirb d s r cc) := two_length _ _

theorem EncodeLength.ldd (d s r : RegCode) : EncodeLength.Statement (.ldd d s r) := two_length _ _

theorem EncodeLength.lddb (d s r : RegCode) : EncodeLength.Statement (.lddb d s r) := two_length _ _

theorem EncodeLength.lddr (d s r : RegCode) : EncodeLength.Statement (.lddr d s r) := two_length _ _

theorem EncodeLength.lddrb (d s r : RegCode) : EncodeLength.Statement (.lddrb d s r) := two_length _ _

theorem EncodeLength.ldi (d s r : RegCode) : EncodeLength.Statement (.ldi d s r) := two_length _ _

theorem EncodeLength.ldib (d s r : RegCode) : EncodeLength.Statement (.ldib d s r) := two_length _ _

theorem EncodeLength.ldir (d s r : RegCode) : EncodeLength.Statement (.ldir d s r) := two_length _ _

theorem EncodeLength.ldirb (d s r : RegCode) : EncodeLength.Statement (.ldirb d s r) := two_length _ _

theorem EncodeLength.trdb (d s r : RegCode) : EncodeLength.Statement (.trdb d s r) := two_length _ _

theorem EncodeLength.trdrb (d s r : RegCode) : EncodeLength.Statement (.trdrb d s r) := two_length _ _

theorem EncodeLength.trib (d s r : RegCode) : EncodeLength.Statement (.trib d s r) := two_length _ _

theorem EncodeLength.trirb (d s r : RegCode) : EncodeLength.Statement (.trirb d s r) := two_length _ _

theorem EncodeLength.trtdb (s1 s2 r : RegCode) : EncodeLength.Statement (.trtdb s1 s2 r) := two_length _ _

theorem EncodeLength.trtdrb (s1 s2 r : RegCode) : EncodeLength.Statement (.trtdrb s1 s2 r) := two_length _ _

theorem EncodeLength.trtib (s1 s2 r : RegCode) : EncodeLength.Statement (.trtib s1 s2 r) := two_length _ _

theorem EncodeLength.trtirb (s1 s2 r : RegCode) : EncodeLength.Statement (.trtirb s1 s2 r) := two_length _ _

theorem EncodeLength.inp (d : RegCode) (port : Port) : EncodeLength.Statement (.inp d port) := encodeIn_length _ _ _ _

theorem EncodeLength.inb (d : RegCode) (port : Port) : EncodeLength.Statement (.inb d port) := encodeIn_length _ _ _ _

theorem EncodeLength.sin (d : RegCode) (port : Word) : EncodeLength.Statement (.sin d port) := two_length _ _

theorem EncodeLength.sinb (d : RegCode) (port : Word) : EncodeLength.Statement (.sinb d port) := two_length _ _

theorem EncodeLength.out (port : Port) (s : RegCode) : EncodeLength.Statement (.out port s) := encodeOut_length _ _ _ _

theorem EncodeLength.outb (port : Port) (s : RegCode) : EncodeLength.Statement (.outb port s) := encodeOut_length _ _ _ _

theorem EncodeLength.sout (port : Word) (s : RegCode) : EncodeLength.Statement (.sout port s) := two_length _ _

theorem EncodeLength.soutb (port : Word) (s : RegCode) : EncodeLength.Statement (.soutb port s) := two_length _ _

theorem EncodeLength.ind (d s r : RegCode) : EncodeLength.Statement (.ind d s r) := two_length _ _

theorem EncodeLength.indb (d s r : RegCode) : EncodeLength.Statement (.indb d s r) := two_length _ _

theorem EncodeLength.indr (d s r : RegCode) : EncodeLength.Statement (.indr d s r) := two_length _ _

theorem EncodeLength.indrb (d s r : RegCode) : EncodeLength.Statement (.indrb d s r) := two_length _ _

theorem EncodeLength.ini (d s r : RegCode) : EncodeLength.Statement (.ini d s r) := two_length _ _

theorem EncodeLength.inib (d s r : RegCode) : EncodeLength.Statement (.inib d s r) := two_length _ _

theorem EncodeLength.inir (d s r : RegCode) : EncodeLength.Statement (.inir d s r) := two_length _ _

theorem EncodeLength.inirb (d s r : RegCode) : EncodeLength.Statement (.inirb d s r) := two_length _ _

theorem EncodeLength.outd (d s r : RegCode) : EncodeLength.Statement (.outd d s r) := two_length _ _

theorem EncodeLength.outdb (d s r : RegCode) : EncodeLength.Statement (.outdb d s r) := two_length _ _

theorem EncodeLength.otdr (d s r : RegCode) : EncodeLength.Statement (.otdr d s r) := two_length _ _

theorem EncodeLength.otdrb (d s r : RegCode) : EncodeLength.Statement (.otdrb d s r) := two_length _ _

theorem EncodeLength.outi (d s r : RegCode) : EncodeLength.Statement (.outi d s r) := two_length _ _

theorem EncodeLength.outib (d s r : RegCode) : EncodeLength.Statement (.outib d s r) := two_length _ _

theorem EncodeLength.otir (d s r : RegCode) : EncodeLength.Statement (.otir d s r) := two_length _ _

theorem EncodeLength.otirb (d s r : RegCode) : EncodeLength.Statement (.otirb d s r) := two_length _ _

theorem EncodeLength.sind (d s r : RegCode) : EncodeLength.Statement (.sind d s r) := two_length _ _

theorem EncodeLength.sindb (d s r : RegCode) : EncodeLength.Statement (.sindb d s r) := two_length _ _

theorem EncodeLength.sindr (d s r : RegCode) : EncodeLength.Statement (.sindr d s r) := two_length _ _

theorem EncodeLength.sindrb (d s r : RegCode) : EncodeLength.Statement (.sindrb d s r) := two_length _ _

theorem EncodeLength.sini (d s r : RegCode) : EncodeLength.Statement (.sini d s r) := two_length _ _

theorem EncodeLength.sinib (d s r : RegCode) : EncodeLength.Statement (.sinib d s r) := two_length _ _

theorem EncodeLength.sinir (d s r : RegCode) : EncodeLength.Statement (.sinir d s r) := two_length _ _

theorem EncodeLength.sinirb (d s r : RegCode) : EncodeLength.Statement (.sinirb d s r) := two_length _ _

theorem EncodeLength.soutd (d s r : RegCode) : EncodeLength.Statement (.soutd d s r) := two_length _ _

theorem EncodeLength.soutdb (d s r : RegCode) : EncodeLength.Statement (.soutdb d s r) := two_length _ _

theorem EncodeLength.sotdr (d s r : RegCode) : EncodeLength.Statement (.sotdr d s r) := two_length _ _

theorem EncodeLength.sotdrb (d s r : RegCode) : EncodeLength.Statement (.sotdrb d s r) := two_length _ _

theorem EncodeLength.souti (d s r : RegCode) : EncodeLength.Statement (.souti d s r) := two_length _ _

theorem EncodeLength.soutib (d s r : RegCode) : EncodeLength.Statement (.soutib d s r) := two_length _ _

theorem EncodeLength.sotir (d s r : RegCode) : EncodeLength.Statement (.sotir d s r) := two_length _ _

theorem EncodeLength.sotirb (d s r : RegCode) : EncodeLength.Statement (.sotirb d s r) := two_length _ _

theorem EncodeLength.di (vn : BitVec 2) : EncodeLength.Statement (.di vn) := one_length _

theorem EncodeLength.ei (vn : BitVec 2) : EncodeLength.Statement (.ei vn) := one_length _

theorem EncodeLength.halt : EncodeLength.Statement .halt := one_length _

theorem EncodeLength.iret : EncodeLength.Statement .iret := one_length _

theorem EncodeLength.ldctlTo (c : CtlReg) (s : RegCode) : EncodeLength.Statement (.ldctlTo c s) := one_length _

theorem EncodeLength.ldctlFrom (d : RegCode) (c : CtlReg) : EncodeLength.Statement (.ldctlFrom d c) := one_length _

theorem EncodeLength.ldctlbTo (s : RegCode) : EncodeLength.Statement (.ldctlbTo s) := one_length _

theorem EncodeLength.ldctlbFrom (d : RegCode) : EncodeLength.Statement (.ldctlbFrom d) := one_length _

theorem EncodeLength.ldps (m : Mem) : EncodeLength.Statement (.ldps m) := encodeMem_length_nil _ _ _

theorem EncodeLength.mbit : EncodeLength.Statement .mbit := one_length _

theorem EncodeLength.mreq (d : RegCode) : EncodeLength.Statement (.mreq d) := one_length _

theorem EncodeLength.mres : EncodeLength.Statement .mres := one_length _

theorem EncodeLength.mset : EncodeLength.Statement .mset := one_length _

theorem EncodeLength.nop : EncodeLength.Statement .nop := one_length _

theorem EncodeLength.sc (src : Byte) : EncodeLength.Statement (.sc src) := one_length _

theorem EncodeLength.ldEpu (w : Word) : EncodeLength.Statement (.ldEpu w) := one_length _

theorem EncodeLength.ldbEpu (w : Word) : EncodeLength.Statement (.ldbEpu w) := one_length _

theorem EncodeLength.epui (w : Word) : EncodeLength.Statement (.epui w) := one_length _

theorem EncodeLength.trappedReserved (w : Word) : EncodeLength.Statement (.trappedReserved w) := one_length _

theorem EncodeLength.trappedEpu (w : Word) : EncodeLength.Statement (.trappedEpu w) := one_length _

theorem EncodeLength.trappedReservedSc (w : Word) : EncodeLength.Statement (.trappedReservedSc w) := one_length _

end Sys2Proof.Laws
end

