-- ==== Sys2Proof/Laws/Shapes.lean ====
section
/-!
SUPPORT. Laws/Shapes.lean: once for each shared operation, what it answers when its operands are there: the operand forms, the
shapes of Operands.lean, the stack, the rotates and shifts, the block iterations and the privilege check.
-/

namespace Sys2Proof.Machine

open Sys2Proof

/-- An attempt that succeeds is a next state. -/
@[simp] theorem finish_ok (s : State) : finish (.ok s) = .next s := rfl

/-- An attempt that is refused is a refusal. -/
@[simp] theorem finish_error (r : Refusal) : finish (.error r) = .refused r := rfl

/-- An even address and the address two on have the same parity. -/
theorem evenAddress_add_two (a : Word) : evenAddress (a + 2) = evenAddress a := by
  unfold evenAddress
  have h : ∀ x : Word, x.getLsbD 0 = decide (x.toNat % 2 = 1) := by
    intro x
    simp [BitVec.getLsbD, Nat.testBit_zero]
  rw [h, h, BitVec.toNat_add]
  congr 2
  have : (2 : Word).toNat = 2 := rfl
  rw [this]
  apply propext
  omega

/-- An even address and the address two below have the same parity. -/
theorem evenAddress_sub_two (a : Word) : evenAddress (a - 2) = evenAddress a := by
  rw [← evenAddress_add_two (a - 2)]
  congr 1
  bv_omega

/-! The same with the literal as `simp` writes it. -/

@[simp] theorem evenAddress_add_lit (a : Word) : evenAddress (a + 2#16) = evenAddress a := evenAddress_add_two a

@[simp] theorem evenAddress_sub_lit (a : Word) : evenAddress (a - 2#16) = evenAddress a := evenAddress_sub_two a

@[simp] theorem evenAddress_add_four (a : Word) : evenAddress (a + 4#16) = evenAddress a := by
  rw [show a + 4#16 = a + 2 + 2 by bv_omega, evenAddress_add_two, evenAddress_add_two]

@[simp] theorem evenAddress_sub_four (a : Word) : evenAddress (a - 4#16) = evenAddress a := by
  rw [show a - 4#16 = a - 2 - 2 by bv_omega, evenAddress_sub_two, evenAddress_sub_two]

/-- A word at an even address is read. -/
theorem State.readWord_even {s : State} {sp : Space} {a : Word} (h : evenAddress a = true) :
    s.readWord sp a = .ok (s.wordAt sp a) := by simp [State.readWord, h]

/-- A word at an even address is written. -/
theorem State.writeWord_even {s : State} {sp : Space} {a v : Word} (h : evenAddress a = true) :
    s.writeWord sp a v = .ok (s.putWord sp a v) := by simp [State.writeWord, h]

/-- A long at an even address is read. -/
theorem State.readLong_even {s : State} {sp : Space} {a : Word} (h : evenAddress a = true) :
    s.readLong sp a = .ok (s.wordAt sp a ++ s.wordAt sp (a + 2)) := by simp [State.readLong, h]

/-- A long at an even address is written. -/
theorem State.writeLong_even {s : State} {sp : Space} {a : Word} {v : Long} (h : evenAddress a = true) :
    s.writeLong sp a v = .ok (s.putLong sp a v) := by simp [State.writeLong, State.putLong, h]

/-- A legal pair is read. -/
theorem State.pair_legal {s : State} {c : RegCode} (h : pairCode c = true) : s.pair c = .ok (s.reg c ++ s.reg (c + 1)) := by
  simp [State.pair, State.pairValue, h]

/-- A legal pair is written. -/
theorem State.setPair_legal {s : State} {c : RegCode} {v : Long} (h : pairCode c = true) :
    s.setPair c v = .ok (s.setPairValue c v) := by simp [State.setPair, h]

/-- A legal quadruple is read. -/
theorem State.quad_legal {s : State} {c : RegCode} (h : quadCode c = true) :
    s.quad c = .ok (s.reg c ++ s.reg (c + 1) ++ (s.reg (c + 2) ++ s.reg (c + 3))) := by
  have e : c + 2 + 1 = c + 3 := (quad_apart c).2.2.2.2.2
  rw [State.quad, if_pos h, State.quadValue, State.pairValue, State.pairValue, e]

/-- A legal quadruple is written. -/
theorem State.setQuad_legal {s : State} {c : RegCode} {v : Quad} (h : quadCode c = true) :
    s.setQuad c v = .ok ((s.setPairValue c (v.extractLsb' 32 32)).setPairValue (c + 2) (v.extractLsb' 0 32)) := by
  simp [State.setQuad, h]

/-! The shapes. -/

/-- "register op source" on words. -/
theorem binaryWord_ok {op : Word → Word → Word × FlagWrite} {d : RegCode} {src : Src 16} {s : State} {v : Word}
    (h : s.srcWord src = .ok v) :
    binaryWord op d src s = .ok ((s.setReg d (op (s.reg d) v).1).setFlags (op (s.reg d) v).2) := by
  simp [binaryWord, State.fetchWord, State.assignWord, h, bind, Except.bind]

/-- "register op source" on bytes. -/
theorem binaryByte_ok {op : Byte → Byte → Byte × FlagWrite} {d : RegCode} {src : Src 8} {s : State} {v : Byte}
    (h : s.srcByte src = .ok v) :
    binaryByte op d src s = .ok ((s.setByteReg d (op (s.byteReg d) v).1).setFlags (op (s.byteReg d) v).2) := by
  simp [binaryByte, State.fetchByte, State.assignByte, h, bind, Except.bind]

/-- "pair op source" on longs. -/
theorem binaryLong_ok {op : Long → Long → Long × FlagWrite} {d : RegCode} {src : Src 32} {s : State} {v : Long}
    (hd : pairCode d = true) (h : s.srcLong src = .ok v) :
    binaryLong op d src s =
      .ok ((s.setPairValue d (op (s.reg d ++ s.reg (d + 1)) v).1).setFlags (op (s.reg d ++ s.reg (d + 1)) v).2) := by
  simp [binaryLong, State.fetchLong, State.assignLong, State.pair_legal hd, State.setPair_legal hd, h, bind, Except.bind]

/-- A compare of words. -/
theorem compareWord_ok {op : Word → Word → FlagWrite} {d : RegCode} {src : Src 16} {s : State} {v : Word}
    (h : s.srcWord src = .ok v) : compareWord op d src s = .ok (s.setFlags (op (s.reg d) v)) := by
  simp [compareWord, State.fetchWord, h, bind, Except.bind]

/-- A compare of bytes. -/
theorem compareByte_ok {op : Byte → Byte → FlagWrite} {d : RegCode} {src : Src 8} {s : State} {v : Byte}
    (h : s.srcByte src = .ok v) : compareByte op d src s = .ok (s.setFlags (op (s.byteReg d) v)) := by
  simp [compareByte, State.fetchByte, h, bind, Except.bind]

/-- A compare of longs. -/
theorem compareLong_ok {op : Long → Long → FlagWrite} {d : RegCode} {src : Src 32} {s : State} {v : Long}
    (hd : pairCode d = true) (h : s.srcLong src = .ok v) :
    compareLong op d src s = .ok (s.setFlags (op (s.reg d ++ s.reg (d + 1)) v)) := by
  simp [compareLong, State.fetchLong, State.pair_legal hd, h, bind, Except.bind]

/-- The flags of a word operand. -/
theorem examineWord_ok {op : Word → FlagWrite} {dst : Dst} {s : State} {a : Word} (h : s.dstWord dst = .ok a) :
    examineWord op dst s = .ok (s.setFlags (op a)) := by
  simp [examineWord, h, bind, Except.bind]

/-- The flags of a byte operand. -/
theorem examineByte_ok {op : Byte → FlagWrite} {dst : Dst} {s : State} {a : Byte} (h : s.dstByte dst = .ok a) :
    examineByte op dst s = .ok (s.setFlags (op a)) := by
  simp [examineByte, h, bind, Except.bind]

/-- The flags of a long operand. -/
theorem examineLong_ok {op : Long → FlagWrite} {dst : Dst} {s : State} {a : Long} (h : s.dstLong dst = .ok a) :
    examineLong op dst s = .ok (s.setFlags (op a)) := by
  simp [examineLong, h, bind, Except.bind]

/-- A word operand that can be read can be written, and holds what is written. -/
theorem setDstWord_ok {s : State} {dst : Dst} {a : Word} (v : Word) (h : s.dstWord dst = .ok a) :
    ∃ t, s.setDstWord dst v = .ok t ∧ ∀ f, WordOperand dst v f s (t.setFlags f) := by
  cases dst with
  | reg d => exact ⟨_, rfl, fun f => wordRegister_set s d v f⟩
  | mem m =>
    obtain ⟨he, -⟩ := State.readWord_ok h
    exact ⟨_, State.writeWord_even he, fun f => wordStored_set s (s.memLoc m) v f⟩

/-- A byte operand can be written, and holds what is written. -/
theorem setDstByte_ok (s : State) (dst : Dst) (v : Byte) :
    ∃ t, s.setDstByte dst v = .ok t ∧ ∀ f, ByteOperand dst v f s (t.setFlags f) := by
  cases dst with
  | reg d => exact ⟨_, rfl, fun f => byteRegister_set s d v f⟩
  | mem m => exact ⟨_, rfl, fun f => byteStored_set s (s.memLoc m) v f⟩

/-- A read-modify-write of a word operand. -/
theorem modifyWord_ok {op : Word → Word × FlagWrite} {dst : Dst} {s : State} {a : Word} (h : s.dstWord dst = .ok a) :
    ∃ t, modifyWord op dst s = .ok t ∧ WordOperand dst (op a).1 (op a).2 s t := by
  obtain ⟨t, ht, hw⟩ := setDstWord_ok (op a).1 h
  exact ⟨_, by simp [modifyWord, h, ht, bind, Except.bind], hw (op a).2⟩

/-- A read-modify-write of a byte operand. -/
theorem modifyByte_ok {op : Byte → Byte × FlagWrite} {dst : Dst} {s : State} {a : Byte} (h : s.dstByte dst = .ok a) :
    ∃ t, modifyByte op dst s = .ok t ∧ ByteOperand dst (op a).1 (op a).2 s t := by
  obtain ⟨t, ht, hw⟩ := setDstByte_ok s dst (op a).1
  exact ⟨_, by simp [modifyByte, h, ht, bind, Except.bind], hw (op a).2⟩

/-! Rotate and shift. -/

/-- A rotate of a word register. -/
theorem rotateWord_ok (k : ShiftKind) (d : RegCode) (two : Bool) (s : State) :
    rotateWord k d two s = .ok ((s.setReg d (rotateBy k two (s.reg d) s.carry).x).setFlags
      (rotateBy k two (s.reg d) s.carry).flags) := rfl

/-- A rotate of a byte register. -/
theorem rotateByte_ok (k : ShiftKind) (d : RegCode) (two : Bool) (s : State) :
    rotateByte k d two s = .ok ((s.setByteReg d (rotateBy k two (s.byteReg d) s.carry).x).setFlags
      (rotateBy k two (s.byteReg d) s.carry).flags) := rfl

/-- A shift of a word register. -/
theorem shiftWord_ok (arithmetic : Bool) (d : RegCode) (count : Int) (carry : ZeroCountCarry) (s : State) :
    shiftWord arithmetic d count carry s = .ok ((s.setReg d (shiftResult arithmetic (s.reg d) count carry).1).setFlags
      (shiftResult arithmetic (s.reg d) count carry).2) := rfl

/-- A shift of a byte register. -/
theorem shiftByte_ok (arithmetic : Bool) (d : RegCode) (count : Int) (carry : ZeroCountCarry) (s : State) :
    shiftByte arithmetic d count carry s =
      .ok ((s.setByteReg d (shiftResult arithmetic (s.byteReg d) count carry).1).setFlags
        (shiftResult arithmetic (s.byteReg d) count carry).2) := rfl

/-- A shift of a legal pair. -/
theorem shiftLong_ok {arithmetic : Bool} {d : RegCode} {count : Int} {carry : ZeroCountCarry} {s : State}
    (hd : pairCode d = true) :
    shiftLong arithmetic d count carry s =
      .ok ((s.setPairValue d (shiftResult arithmetic (s.reg d ++ s.reg (d + 1)) count carry).1).setFlags
        (shiftResult arithmetic (s.reg d ++ s.reg (d + 1)) count carry).2) := by
  simp [shiftLong, State.fetchLong, State.assignLong, State.pair_legal hd, State.setPair_legal hd, bind, Except.bind]

/-! The stack. -/

/-- A push on the stack of R15. -/
theorem State.pushWord_ok {s : State} {v : Word} (h : evenAddress (s.reg 0xF#4) = true) :
    s.pushWord v = .ok ((s.setReg 0xF#4 (s.reg 0xF#4 - 2)).putWord .stack (s.reg 0xF#4 - 2) v) := by
  rw [State.pushWord, State.writeWord_even (by rw [evenAddress_sub_two, h])]

/-- A pop from the stack of R15. -/
theorem State.popWord_ok {s : State} (h : evenAddress (s.reg 0xF#4) = true) :
    s.popWord = .ok (s.wordAt .stack (s.reg 0xF#4), s.setReg 0xF#4 (s.reg 0xF#4 + 2)) := by
  simp [State.popWord, State.readWord_even h, bind, Except.bind]

/-- What a push leaves. -/
theorem pushed_put (s : State) (sp : RegCode) (v : Word) :
    Pushed sp v s ((s.setReg sp (s.reg sp - 2)).putWord (dspace sp) (s.reg sp - 2) v) := by
  have e : s.reg sp - 2 + 1 = s.reg sp - 1 := by bv_omega
  have h := State.putWord_bytes (s.setReg sp (s.reg sp - 2)) (dspace sp) (dspace sp) (s.reg sp - 2) v
  rw [e] at h
  refine ⟨by simp, h.1, h.2, ?_⟩
  have k := (OnlyChanged.setReg s sp (s.reg sp - 2)).trans (OnlyChanged.putWord _ (dspace sp) (s.reg sp - 2) v)
  rw [e] at k
  exact k

/-! The privilege check. -/

/-- In System mode a privileged instruction runs. -/
theorem privileged_system {i : Instr} {s : State} {body : Result} (h : s.sys = true) : privileged i s body = body := by
  simp [privileged, h]

/-- In Normal mode it traps. -/
theorem privileged_normal {i : Instr} {s : State} {body : Result} (h : s.sys = false) :
    privileged i s body = finish (s.trapEntry (firstWord i) (secondWordPc i s.pc) 0x0008#16 0x000A#16) := by
  simp [privileged, h, State.privilegedTrap]

/-! The block instructions. -/

/-- Registers that do not overlap pass the check. -/
theorem requireApart_ok {b : Bool} (h : b = false) : requireApart b = .ok () := by simp [requireApart, h]

/-- A pointer register that is not R0 passes the check. -/
theorem requirePointer_ok {r : RegCode} (h : r ≠ 0) : requirePointer r = .ok () := if_neg h

/-- The end of an iteration. -/
theorem onlyChanged_endIteration (repeats : Bool) (r : RegCode) (flags : Bool → FlagWrite) (done : Bool → Bool)
    (s : State) :
    (endIteration repeats r flags done s).reg r = s.reg r - 1 ∧
      OnlyChanged [r] [] (flags (s.reg r - 1 == 0))
        { s with pc := if repeats && !done (s.reg r - 1 == 0) then s.pc - 4 else s.pc }
        (endIteration repeats r flags done s) := by
  unfold endIteration
  dsimp only
  split
  · rename_i hb
    have h := ((OnlyChanged.setReg s r (s.reg r - 1)).withFlags (flags (s.reg r - 1 == 0)))
    refine ⟨by simp, { h with pc := ?_ }⟩
    simp [State.rewind]
  · rename_i hb
    have h := ((OnlyChanged.setReg s r (s.reg r - 1)).withFlags (flags (s.reg r - 1 == 0)))
    exact ⟨by simp, { h with pc := by simp }⟩

/-- The count is one before the decrement exactly when it is zero after it. -/
theorem sub_one_beq_zero (x : Word) : (x - 1 == 0) = (x == 1) := by
  rw [Bool.eq_iff_iff, beq_iff_eq, beq_iff_eq]
  constructor <;> intro h <;> bv_omega

/-- The end of an iteration does not touch memory. -/
@[simp] theorem endIteration_mem (repeats : Bool) (r : RegCode) (flags : Bool → FlagWrite) (done : Bool → Bool)
    (s : State) : (endIteration repeats r flags done s).mem = s.mem := by
  unfold endIteration
  dsimp only
  split <;> simp [State.rewind]

/-- An iteration, whole: a body that wrote the registers of `rs` and the bytes at `bs`, and then its end. -/
theorem iterated_endIteration {s t : State} {rs : List (RegCode × Word)} {bs : List Word} {r : RegCode}
    {flags : Bool → FlagWrite} {done : Bool → Bool} {repeats again : Bool} {f : FlagWrite}
    (hc : OnlyChanged (rs.map (·.1)) bs {} s t) (hv : ∀ x ∈ rs, t.reg x.1 = x.2 ∧ x.1 ≠ r)
    (hr : t.reg r = s.reg r) (hf : flags (s.reg r == 1) = f) (ha : (repeats && !done (s.reg r == 1)) = again) :
    Iterated r rs bs f again s (endIteration repeats r flags done t) := by
  subst hf ha
  obtain ⟨h1, h2⟩ := onlyChanged_endIteration repeats r flags done t
  rw [sub_one_beq_zero, hr, hc.pc] at h2
  refine ⟨by rw [h1, hr], fun x hx => ?_, ?_⟩
  · rw [h2.registers x.1 (by simpa using (hv x hx).2)]
    exact (hv x hx).1
  · have hc' : OnlyChanged (rs.map (·.1)) bs {}
        { s with pc := if (repeats && !done (s.reg r == 1)) = true then s.pc - 4 else s.pc }
        { t with pc := if (repeats && !done (s.reg r == 1)) = true then s.pc - 4 else s.pc } := { hc with pc := rfl }
    exact (hc'.trans h2).mono (by simp; intro q a; tauto) (by simp)

end Sys2Proof.Machine
end

