-- ==== Sys2Proof/Laws/Trap.lean ====
section
/-!
SUPPORT. Laws/Trap.lean: taking a trap or an interrupt, and the return, as equations (60_exceptions.md R701, 47_system.md
R576).
-/

namespace Sys2Proof.Machine

open Sys2Proof

/-- The sum of even addresses is even. -/
theorem evenAddress_add {a b : Word} (ha : evenAddress a = true) (hb : evenAddress b = true) :
    evenAddress (a + b) = true := by
  have h : ∀ x : Word, evenAddress x = true ↔ x.toNat % 2 = 0 := by
    intro x
    simp [evenAddress, BitVec.getLsbD, Nat.testBit_zero]
  rw [h] at *
  rw [BitVec.toNat_add]
  omega

/-- A push in System mode. -/
theorem State.pushWord_system {s : State} (hs : s.sys = true) (v : Word) (h : evenAddress s.regs[15] = true) :
    s.pushWord v =
      .ok (({ s with regs := s.regs.set 15 (s.regs[15] - 2#16) } : State).putWord .stack (s.regs[15] - 2#16) v) := by
  have hr : s.reg 0xF#4 = s.regs[15] := by rw [State.reg_system _ _ hs]; rfl
  rw [State.pushWord_ok (by rw [hr, h]), hr]
  simp [State.setReg, hs]

/-- The state with the frame of an entry on the system stack. -/
def State.framed (s : State) (identifier savedPc : Word) : State :=
  ((({ s with fcw := s.fcw ||| 0x4000#16, regs := s.regs.set 15 (s.regs[15] - 6#16) } : State).putWord .stack
    (s.regs[15] - 2#16) savedPc).putWord .stack (s.regs[15] - 4#16) s.fcw).putWord .stack (s.regs[15] - 6#16) identifier

/-- An entry, as an equation. -/
theorem State.trapEntry_eq {s : State} {identifier savedPc fcwOffset pcOffset : Word}
    (h : evenAddress s.regs[15] = true) (hf : evenAddress (s.psap + fcwOffset) = true)
    (hp : evenAddress (s.psap + pcOffset) = true) :
    s.trapEntry identifier savedPc fcwOffset pcOffset = .ok { s.framed identifier savedPc with
      fcw := fcwMask ((s.framed identifier savedPc).wordAt .program (s.psap + fcwOffset))
      pc := (s.framed identifier savedPc).wordAt .program (s.psap + pcOffset)
      halted := false } := by
  unfold State.trapEntry
  have s1 : State.sys { s with fcw := s.fcw ||| 0x4000#16 } = true := by simp [State.sys]
  have e4 : s.regs[15] - 2#16 - 2#16 = s.regs[15] - 4#16 := by bv_omega
  have e6 : s.regs[15] - 4#16 - 2#16 = s.regs[15] - 6#16 := by bv_omega
  have h2 : evenAddress (s.regs[15] - 2#16) = true := by rw [← h]; exact evenAddress_sub_two _
  have h4 : evenAddress (s.regs[15] - 4#16) = true := by rw [← h2, ← e4]; exact evenAddress_sub_two _
  dsimp only
  rw [State.pushWord_system s1 _ h]
  simp only [bind, Except.bind]
  rw [State.pushWord_system (by simp [State.sys]) _ (by simp [h2])]
  simp only [bind, Except.bind]
  rw [State.pushWord_system (by simp [State.sys]) _ (by simp [e4, h4])]
  simp only [bind, Except.bind]
  rw [State.readWord_even (by simpa using hf)]
  simp only
  rw [State.readWord_even (by simpa using hp)]
  simp [State.framed, State.loadStatus, State.putWord, State.writeByte, State.wordAt, State.readByte, e4, e6]

/-- The return, as an equation. -/
theorem State.trapReturn_eq {s : State} (h : evenAddress (s.reg 0xF#4) = true) :
    s.trapReturn = .ok ((s.setReg 0xF#4 (s.reg 0xF#4 + 6)).loadStatus (s.wordAt .stack (s.reg 0xF#4 + 2))
      (s.wordAt .stack (s.reg 0xF#4 + 4))) := by
  have h2 : evenAddress (s.reg 0xF#4 + 2) = true := by rw [evenAddress_add_two, h]
  have h4 : evenAddress (s.reg 0xF#4 + 4) = true := by
    rw [show s.reg 0xF#4 + 4 = s.reg 0xF#4 + 2 + 2 by bv_omega, evenAddress_add_two, h2]
  unfold State.trapReturn
  dsimp only
  rw [State.readWord_even h2]
  simp only [bind, Except.bind]
  rw [State.readWord_even h4]

/-- Words that are no instruction are refused, but for block input and output in Normal mode. -/
theorem State.undecoded_refused {s : State} (why : DecodeError)
    (h : s.sys = true ∨ blockIoWord (s.wordAt .program s.pc) = false) : s.undecoded why = .refused (.undecodable why) := by
  rcases h with h | h <;> simp [State.undecoded, h]

/-- In Normal mode block input and output trap, whatever their second word is (60_exceptions.md R706). -/
theorem State.undecoded_traps {s : State} (why : DecodeError) (hs : s.sys = false)
    (h : blockIoWord (s.wordAt .program s.pc) = true) :
    s.undecoded why = finish (s.trapEntry (s.wordAt .program s.pc) (s.pc + 2) 0x0008#16 0x000A#16) := by
  simp [State.undecoded, State.privilegedTrap, hs, h]

end Sys2Proof.Machine
end

