-- ==== Sys2Proof/Tests/Slice0.lean ====
section
/-!
SUPPORT. Tests/Slice0.lean: well-formedness checks that refuse, words written out from the encoding tables and what they
decode to, one-step vectors of spec/95_test_vectors.md with the end states that file gives, and for every statement
with hypotheses a state and operands that meet them.
-/

namespace Sys2Proof.Tests

open Sys2Proof Sys2Proof.Machine

/-! Helpers. -/

/-- A word sequence reads as exactly this instruction, which is well formed. -/
def readsAs (e : List Word × Instr) : Bool := decode e.1 == .ok (e.2, []) && e.2.wellFormed

/-- Set registers. -/
def withRegs (s : State) (rs : List (Nat × Nat)) : State :=
  rs.foldl (fun s r => { s with regs := s.regs.setIfInBounds r.1 (BitVec.ofNat 16 r.2) }) s

/-- Store bytes. -/
def withBytes (s : State) (bs : List (Nat × Nat)) : State :=
  bs.foldl (fun s b => s.writeByte .data (BitVec.ofNat 16 b.1) (BitVec.ofNat 8 b.2)) s

/-- The start state of spec/95_test_vectors.md section 1: R15 = 0x8000, pc = 0x1000, the code there, and the registers and
bytes that the vector gives. -/
def start (regs : List (Nat × Nat)) (code : List Nat) (bytes : List (Nat × Nat)) : State :=
  withBytes (withRegs { (State.reset.putBytes 0x1000#16 (bytesOfWords (code.map (BitVec.ofNat 16)))) with
    pc := 0x1000#16 } ((15, 0x8000) :: regs)) bytes

/-- The end state of a vector: FCW and pc as given, and these registers and bytes changed. -/
def changed (fcw pc : Nat) (regs bytes : List (Nat × Nat)) (s : State) : State :=
  { withBytes (withRegs s regs) bytes with
    fcw := BitVec.ofNat 16 fcw, pc := BitVec.ofNat 16 pc, inputs := [], clock := s.clock + 1 }

/-- One step goes on, to this state. -/
def goes (s : State) (after : State → State) : Bool :=
  match step s with
  | .next t => t == after s
  | _ => false

/-- One step is refused with this reason. -/
def stops (s : State) (why : Refusal) : Bool :=
  match step s with
  | .refused r => r == why
  | _ => false

set_option maxRecDepth 100000

/-! Well-formedness: each check refuses a term that no word stands for, and lets its neighbour pass. -/

theorem test_wf_mem_ir : (Instr.com (.mem (.ir 0))).wellFormed = false := by decide
theorem test_wf_mem_x : (Instr.ldps (.x 0x4000 0)).wellFormed = false := by decide
theorem test_wf_mem_da : (Instr.call (.da 0x4000)).wellFormed = true := by decide
theorem test_wf_src : (Instr.add 1 (.mem (.ir 0))).wellFormed = false := by decide
theorem test_wf_src_register : (Instr.add 1 (.reg 0)).wellFormed = true := by decide
theorem test_wf_ldsrc_ba : (Instr.ld 1 (.ba 0 8)).wellFormed = false := by decide
theorem test_wf_ldsrc_bx : (Instr.ldl 2 (.bx 0 3)).wellFormed = false := by decide
theorem test_wf_ldsrc_bx_index : (Instr.ldl 2 (.bx 3 0)).wellFormed = true := by decide
theorem test_wf_lddst_ba : (Instr.ldStore (.ba 0 8) 1).wellFormed = false := by decide
theorem test_wf_lddst_bx : (Instr.ldbStore (.bx 0 8) 1).wellFormed = false := by decide
theorem test_wf_lda_x : (Instr.lda 1 (.x 8 0)).wellFormed = false := by decide
theorem test_wf_lda_ba : (Instr.lda 1 (.ba 0 8)).wellFormed = false := by decide
theorem test_wf_lda_bx : (Instr.lda 1 (.bx 0 8)).wellFormed = false := by decide
theorem test_wf_port : (Instr.inp 1 (.ir 0)).wellFormed = false := by decide
theorem test_wf_pop_stack : (Instr.pop (.reg 1) 0).wellFormed = false := by decide
theorem test_wf_popl_operand : (Instr.popl (.mem (.ir 0)) 15).wellFormed = false := by decide
theorem test_wf_push_stack : (Instr.push 0 (.reg 1)).wellFormed = false := by decide
theorem test_wf_push_immediate : (Instr.pushImm 0 1).wellFormed = false := by decide
theorem test_wf_left_shift : (Instr.sla 1 0xFFFF).wellFormed = false := by decide
theorem test_wf_left_shift_zero : (Instr.sla 1 0).wellFormed = true := by decide
theorem test_wf_right_shift : (Instr.srlb 1 0).wellFormed = false := by decide
theorem test_wf_block_pointer : (Instr.ldir 1 0 2).wellFormed = false := by decide
theorem test_wf_translate_pointer : (Instr.trib 0 1 2).wellFormed = false := by decide
theorem test_wf_block_input_pointer : (Instr.sinir 1 0 2).wellFormed = false := by decide
theorem test_wf_epu : (Instr.ldEpu 0x0F0C).wellFormed = false := by decide
theorem test_wf_reserved : (Instr.trappedReserved 0x8121).wellFormed = false := by decide
theorem test_wf_reserved_sc : (Instr.trappedReservedSc 0x7F05).wellFormed = false := by decide

/-! Decoding: for every constructor, words written out from its row of spec/opcode_table.json, each field at a value of its
own (d = 2, s = 5, r = 7, second source 9, condition 0110, count field 3, bit 5). -/

theorem test_decode_arithmetic : ([
    ([0xB552#16], .adc 2 5),
    ([0xB452#16], .adcb 2 5),
    ([0x0152#16], .add 2 (.mem (.ir 5))),
    ([0x4002#16, 0x2468#16], .addb 2 (.mem (.da 0x2468))),
    ([0x5652#16, 0x2468#16], .addl 2 (.mem (.x 0x2468 5))),
    ([0x8B52#16], .cp 2 (.reg 5)),
    ([0x0A02#16, 0xA5A5#16], .cpb 2 (.imm 0xA5)),
    ([0x1052#16], .cpl 2 (.mem (.ir 5))),
    ([0x4D21#16, 0x2468#16, 0x1357#16], .cpMem (.x 0x2468 2) 0x1357),
    ([0x0C21#16, 0xA5A5#16], .cpbMem (.ir 2) 0xA5),
    ([0xB020#16], .dab 2),
    ([0x6B23#16, 0x2468#16], .dec (.mem (.x 0x2468 2)) 3),
    ([0xAA23#16], .decb (.reg 2) 3),
    ([0x5B02#16, 0x2468#16], .div 2 (.mem (.da 0x2468))),
    ([0x5A52#16, 0x2468#16], .divl 2 (.mem (.x 0x2468 5))),
    ([0xB12A#16], .exts 2),
    ([0xB120#16], .extsb 2),
    ([0xB127#16], .extsl 2),
    ([0x6903#16, 0x2468#16], .inc (.mem (.da 0x2468)) 3),
    ([0x6823#16, 0x2468#16], .incb (.mem (.x 0x2468 2)) 3),
    ([0x9952#16], .mult 2 (.reg 5)),
    ([0x1802#16, 0x1234#16, 0x5678#16], .multl 2 (.imm 0x12345678)),
    ([0x4D02#16, 0x2468#16], .neg (.mem (.da 0x2468))),
    ([0x4C22#16, 0x2468#16], .negb (.mem (.x 0x2468 2))),
    ([0xB752#16], .sbc 2 5),
    ([0xB652#16], .sbcb 2 5),
    ([0x0302#16, 0x1357#16], .sub 2 (.imm 0x1357)),
    ([0x0252#16], .subb 2 (.mem (.ir 5))),
    ([0x5202#16, 0x2468#16], .subl 2 (.mem (.da 0x2468)))] : List (List Word × Instr)).all readsAs = true := by decide

theorem test_decode_logical : ([
    ([0x4752#16, 0x2468#16], .and 2 (.mem (.x 0x2468 5))),
    ([0x8652#16], .andb 2 (.reg 5)),
    ([0x0502#16, 0x1357#16], .or 2 (.imm 0x1357)),
    ([0x0452#16], .orb 2 (.mem (.ir 5))),
    ([0x4902#16, 0x2468#16], .xor 2 (.mem (.da 0x2468))),
    ([0x4852#16, 0x2468#16], .xorb 2 (.mem (.x 0x2468 5))),
    ([0x4D20#16, 0x2468#16], .com (.mem (.x 0x2468 2))),
    ([0x8C20#16], .comb (.reg 2)),
    ([0x2725#16], .bit (.mem (.ir 2)) 5),
    ([0x6605#16, 0x2468#16], .bitb (.mem (.da 0x2468)) 5),
    ([0x2705#16, 0x0200#16], .bitDyn 2 5),
    ([0x2605#16, 0x0200#16], .bitbDyn 2 5),
    ([0x2325#16], .res (.mem (.ir 2)) 5),
    ([0x6205#16, 0x2468#16], .resb (.mem (.da 0x2468)) 5),
    ([0x2305#16, 0x0200#16], .resDyn 2 5),
    ([0x2205#16, 0x0200#16], .resbDyn 2 5),
    ([0x2525#16], .set (.mem (.ir 2)) 5),
    ([0x6405#16, 0x2468#16], .setb (.mem (.da 0x2468)) 5),
    ([0x2505#16, 0x0200#16], .setDyn 2 5),
    ([0x2405#16, 0x0200#16], .setbDyn 2 5),
    ([0x8DA5#16], .comflg 0xA),
    ([0x8DA3#16], .resflg 0xA),
    ([0x8DA1#16], .setflg 0xA),
    ([0xAF26#16], .tcc .z 2),
    ([0xAE26#16], .tccb .z 2),
    ([0x4D04#16, 0x2468#16], .test (.mem (.da 0x2468))),
    ([0x4C24#16, 0x2468#16], .testb (.mem (.x 0x2468 2))),
    ([0x9C28#16], .testl (.reg 2)),
    ([0x0D26#16], .tset (.mem (.ir 2))),
    ([0x4C06#16, 0x2468#16], .tsetb (.mem (.da 0x2468)))] : List (List Word × Instr)).all readsAs = true := by decide

theorem test_decode_control : ([
    ([0x5F20#16, 0x2468#16], .call (.x 0x2468 2)),
    ([0xDFED#16], .calr 0xFED),
    ([0xF7ED#16], .djnz 7 0x6D),
    ([0xF76D#16], .dbjnz 7 0x6D),
    ([0x1E26#16], .jp .z (.ir 2)),
    ([0xE6ED#16], .jr .z 0xED),
    ([0x9E06#16], .ret .z)] : List (List Word × Instr)).all readsAs = true := by decide

theorem test_decode_load : ([
    ([0x4D08#16, 0x2468#16], .clr (.mem (.da 0x2468))),
    ([0x4C28#16, 0x2468#16], .clrb (.mem (.x 0x2468 2))),
    ([0xAD52#16], .ex 2 (.reg 5)),
    ([0x2C52#16], .exb 2 (.mem (.ir 5))),
    ([0xA152#16], .ld 2 (.reg 5)),
    ([0x2052#16], .ldb 2 (.mem (.ir 5))),
    ([0x5402#16, 0x2468#16], .ldl 2 (.mem (.da 0x2468))),
    ([0xC2A5#16], .ldbShort 2 0xA5),
    ([0x7325#16, 0x0700#16], .ldStore (.bx 2 7) 5),
    ([0x2E25#16], .ldbStore (.mem (.ir 2)) 5),
    ([0x5D05#16, 0x2468#16], .ldlStore (.mem (.da 0x2468)) 5),
    ([0x4D25#16, 0x2468#16, 0x1357#16], .ldImm (.x 0x2468 2) 0x1357),
    ([0x0C25#16, 0xA5A5#16], .ldbImm (.ir 2) 0xA5),
    ([0x7452#16, 0x0700#16], .lda 2 (.bx 5 7)),
    ([0x3402#16, 0xFF02#16], .ldar 2 0xFF02),
    ([0xBD2B#16], .ldk 2 0xB),
    ([0x5C01#16, 0x0203#16, 0x2468#16], .ldm 2 (.da 0x2468) 3),
    ([0x5C29#16, 0x0503#16, 0x2468#16], .ldmStore (.x 0x2468 2) 5 3),
    ([0x3102#16, 0xFF02#16], .ldr 2 0xFF02),
    ([0x3305#16, 0xFF02#16], .ldrStore 0xFF02 5),
    ([0x3002#16, 0xFF02#16], .ldrb 2 0xFF02),
    ([0x3205#16, 0xFF02#16], .ldrbStore 0xFF02 5),
    ([0x3502#16, 0xFF02#16], .ldrl 2 0xFF02),
    ([0x3705#16, 0xFF02#16], .ldrlStore 0xFF02 5),
    ([0x5750#16, 0x2468#16], .pop (.mem (.da 0x2468)) 5),
    ([0x5552#16, 0x2468#16], .popl (.mem (.x 0x2468 2)) 5),
    ([0x9325#16], .push 2 (.reg 5)),
    ([0x1125#16], .pushl 2 (.mem (.ir 5))),
    ([0x0D29#16, 0x1357#16], .pushImm 2 0x1357)] : List (List Word × Instr)).all readsAs = true := by decide

theorem test_decode_shift : ([
    ([0xB322#16], .rl 2 true),
    ([0xB220#16], .rlb 2 false),
    ([0xB32A#16], .rlc 2 true),
    ([0xB228#16], .rlcb 2 false),
    ([0xB326#16], .rr 2 true),
    ([0xB224#16], .rrb 2 false),
    ([0xB32E#16], .rrc 2 true),
    ([0xB22C#16], .rrcb 2 false),
    ([0xBE52#16], .rldb 2 5),
    ([0xBC52#16], .rrdb 2 5),
    ([0xB32B#16, 0x0500#16], .sda 2 5),
    ([0xB22B#16, 0x0500#16], .sdab 2 5),
    ([0xB32F#16, 0x0500#16], .sdal 2 5),
    ([0xB323#16, 0x0500#16], .sdl 2 5),
    ([0xB223#16, 0x0500#16], .sdlb 2 5),
    ([0xB327#16, 0x0500#16], .sdll 2 5),
    ([0xB329#16, 0x0003#16], .sla 2 0x3),
    ([0xB229#16, 0x0003#16], .slab 2 0x3),
    ([0xB32D#16, 0x0003#16], .slal 2 0x3),
    ([0xB321#16, 0x0003#16], .sll 2 0x3),
    ([0xB221#16, 0x0003#16], .sllb 2 0x3),
    ([0xB325#16, 0x0003#16], .slll 2 0x3),
    ([0xB329#16, 0xFFFD#16], .sra 2 0xFFFD),
    ([0xB229#16, 0x00FD#16], .srab 2 0xFD),
    ([0xB32D#16, 0xFFFD#16], .sral 2 0xFFFD),
    ([0xB321#16, 0xFFFD#16], .srl 2 0xFFFD),
    ([0xB221#16, 0x00FD#16], .srlb 2 0xFD),
    ([0xB325#16, 0xFFFD#16], .srll 2 0xFFFD)] : List (List Word × Instr)).all readsAs = true := by decide

theorem test_decode_block : ([
    ([0xBB58#16, 0x0726#16], .cpd 2 5 7 .z),
    ([0xBA58#16, 0x0726#16], .cpdb 2 5 7 .z),
    ([0xBB5C#16, 0x0726#16], .cpdr 2 5 7 .z),
    ([0xBA5C#16, 0x0726#16], .cpdrb 2 5 7 .z),
    ([0xBB50#16, 0x0726#16], .cpi 2 5 7 .z),
    ([0xBA50#16, 0x0726#16], .cpib 2 5 7 .z),
    ([0xBB54#16, 0x0726#16], .cpir 2 5 7 .z),
    ([0xBA54#16, 0x0726#16], .cpirb 2 5 7 .z),
    ([0xBB5A#16, 0x0726#16], .cpsd 2 5 7 .z),
    ([0xBA5A#16, 0x0726#16], .cpsdb 2 5 7 .z),
    ([0xBB5E#16, 0x0726#16], .cpsdr 2 5 7 .z),
    ([0xBA5E#16, 0x0726#16], .cpsdrb 2 5 7 .z),
    ([0xBB52#16, 0x0726#16], .cpsi 2 5 7 .z),
    ([0xBA52#16, 0x0726#16], .cpsib 2 5 7 .z),
    ([0xBB56#16, 0x0726#16], .cpsir 2 5 7 .z),
    ([0xBA56#16, 0x0726#16], .cpsirb 2 5 7 .z),
    ([0xBB59#16, 0x0728#16], .ldd 2 5 7),
    ([0xBA59#16, 0x0728#16], .lddb 2 5 7),
    ([0xBB59#16, 0x0720#16], .lddr 2 5 7),
    ([0xBA59#16, 0x0720#16], .lddrb 2 5 7),
    ([0xBB51#16, 0x0728#16], .ldi 2 5 7),
    ([0xBA51#16, 0x0728#16], .ldib 2 5 7),
    ([0xBB51#16, 0x0720#16], .ldir 2 5 7),
    ([0xBA51#16, 0x0720#16], .ldirb 2 5 7),
    ([0xB828#16, 0x0750#16], .trdb 2 5 7),
    ([0xB82C#16, 0x0750#16], .trdrb 2 5 7),
    ([0xB820#16, 0x0750#16], .trib 2 5 7),
    ([0xB824#16, 0x0750#16], .trirb 2 5 7),
    ([0xB85A#16, 0x0790#16], .trtdb 5 9 7),
    ([0xB85E#16, 0x0790#16], .trtdrb 5 9 7),
    ([0xB852#16, 0x0790#16], .trtib 5 9 7),
    ([0xB856#16, 0x0790#16], .trtirb 5 9 7)] : List (List Word × Instr)).all readsAs = true := by decide

theorem test_decode_io : ([
    ([0x3B24#16, 0x2468#16], .inp 2 (.da 0x2468)),
    ([0x3C52#16], .inb 2 (.ir 5)),
    ([0x3B25#16, 0x2468#16], .sin 2 0x2468),
    ([0x3A25#16, 0x2468#16], .sinb 2 0x2468),
    ([0x3B56#16, 0x2468#16], .out (.da 0x2468) 5),
    ([0x3E25#16], .outb (.ir 2) 5),
    ([0x3B57#16, 0x2468#16], .sout 0x2468 5),
    ([0x3A57#16, 0x2468#16], .soutb 0x2468 5),
    ([0x3B58#16, 0x0728#16], .ind 2 5 7),
    ([0x3A58#16, 0x0728#16], .indb 2 5 7),
    ([0x3B58#16, 0x0720#16], .indr 2 5 7),
    ([0x3A58#16, 0x0720#16], .indrb 2 5 7),
    ([0x3B50#16, 0x0728#16], .ini 2 5 7),
    ([0x3A50#16, 0x0728#16], .inib 2 5 7),
    ([0x3B50#16, 0x0720#16], .inir 2 5 7),
    ([0x3A50#16, 0x0720#16], .inirb 2 5 7),
    ([0x3B5A#16, 0x0728#16], .outd 2 5 7),
    ([0x3A5A#16, 0x0728#16], .outdb 2 5 7),
    ([0x3B5A#16, 0x0720#16], .otdr 2 5 7),
    ([0x3A5A#16, 0x0720#16], .otdrb 2 5 7),
    ([0x3B52#16, 0x0728#16], .outi 2 5 7),
    ([0x3A52#16, 0x0728#16], .outib 2 5 7),
    ([0x3B52#16, 0x0720#16], .otir 2 5 7),
    ([0x3A52#16, 0x0720#16], .otirb 2 5 7),
    ([0x3B59#16, 0x0728#16], .sind 2 5 7),
    ([0x3A59#16, 0x0728#16], .sindb 2 5 7),
    ([0x3B59#16, 0x0720#16], .sindr 2 5 7),
    ([0x3A59#16, 0x0720#16], .sindrb 2 5 7),
    ([0x3B51#16, 0x0728#16], .sini 2 5 7),
    ([0x3A51#16, 0x0728#16], .sinib 2 5 7),
    ([0x3B51#16, 0x0720#16], .sinir 2 5 7),
    ([0x3A51#16, 0x0720#16], .sinirb 2 5 7),
    ([0x3B5B#16, 0x0728#16], .soutd 2 5 7),
    ([0x3A5B#16, 0x0728#16], .soutdb 2 5 7),
    ([0x3B5B#16, 0x0720#16], .sotdr 2 5 7),
    ([0x3A5B#16, 0x0720#16], .sotdrb 2 5 7),
    ([0x3B53#16, 0x0728#16], .souti 2 5 7),
    ([0x3A53#16, 0x0728#16], .soutib 2 5 7),
    ([0x3B53#16, 0x0720#16], .sotir 2 5 7),
    ([0x3A53#16, 0x0720#16], .sotirb 2 5 7)] : List (List Word × Instr)).all readsAs = true := by decide

theorem test_decode_system : ([
    ([0x7C01#16], .di 1),
    ([0x7C05#16], .ei 1),
    ([0x7A00#16], .halt),
    ([0x7B00#16], .iret),
    ([0x7D5F#16], .ldctlTo .nsp 5),
    ([0x7D22#16], .ldctlFrom 2 .fcw),
    ([0x8C59#16], .ldctlbTo 5),
    ([0x8C21#16], .ldctlbFrom 2),
    ([0x7950#16, 0x2468#16], .ldps (.x 0x2468 5)),
    ([0x7B0A#16], .mbit),
    ([0x7B2D#16], .mreq 2),
    ([0x7B09#16], .mres),
    ([0x7B08#16], .mset),
    ([0x8D07#16], .nop),
    ([0x7F12#16], .sc 0x12)] : List (List Word × Instr)).all readsAs = true := by decide

theorem test_decode_traps : ([
    ([0x0F2C#16], .ldEpu 0x0F2C),
    ([0x8F38#16], .ldEpu 0x8F38),
    ([0x8EA9#16], .ldbEpu 0x8EA9),
    ([0x8EA5#16], .epui 0x8EA5),
    ([0x3600#16], .trappedReserved 0x3600),
    ([0xBF12#16], .trappedReserved 0xBF12),
    ([0x0F0C#16], .trappedEpu 0x0F0C),
    ([0x7E12#16], .trappedReservedSc 0x7E12)] : List (List Word × Instr)).all readsAs = true := by decide

/-! One-step vectors; the number is the identifier in spec/95_test_vectors.md. -/

/-! Arithmetic. -/

theorem test_vector_A3 : goes (start [(1, 0x8000), (2, 0x8000)] [0x8121] [])
    (changed 0x40D0 0x1002 [(1, 0x0000)] []) = true := by decide

theorem test_vector_A8 : goes (start [(1, 0x0001), (2, 0x4002)] [0x4121, 0xFFFE] [(0x4001, 0xFF)])
    (changed 0x4000 0x1004 [(1, 0x0100)] []) = true := by decide

theorem test_vector_A9 : stops (start [(1, 0x0001), (2, 0x4001)] [0x0121] []) .misalignedAccess = true := by
  decide

theorem test_vector_A12 : goes { start [(0, 0x7F01)] [0x8080] [] with fcw := 0x4008#16 }
    (changed 0x4034 0x1002 [(0, 0x8001)] []) = true := by decide

theorem test_vector_A14 : stops (start [(0, 0x0015)] [0x0008, 0x2728] []) (.undecodable .unequalImmediateHalves) = true := by
  decide

theorem test_vector_A18 : goes (start [(2, 0xFFFF), (3, 0xFFFF)] [0x1602, 0x0001, 0x0001] [])
    (changed 0x4080 0x1006 [(2, 0x0001), (3, 0x0000)] []) = true := by decide

theorem test_vector_A22 : goes { start [(1, 0x7FFF)] [0xB521] [] with fcw := 0x4080#16 }
    (changed 0x4030 0x1002 [(1, 0x8000)] []) = true := by decide

theorem test_vector_A23 : goes { start [(0, 0x000F)] [0xB498] [] with fcw := 0x4088#16 }
    (changed 0x4004 0x1002 [(0, 0x0010)] []) = true := by decide

theorem test_vector_A24 : goes (start [(1, 0x8000), (2, 0x0001)] [0x8321] [])
    (changed 0x4010 0x1002 [(1, 0x7FFF)] []) = true := by decide

theorem test_vector_A27 : goes (start [] [0x0200, 0x0101] [])
    (changed 0x40AC 0x1004 [(0, 0xFF00)] []) = true := by decide

theorem test_vector_A29 : goes (start [(2, 0x8000), (5, 0x0001)] [0x9242] [])
    (changed 0x4010 0x1002 [(2, 0x7FFF), (3, 0xFFFF)] []) = true := by decide

theorem test_vector_A30 : goes { start [] [0xB721] [] with fcw := 0x4080#16 }
    (changed 0x40A0 0x1002 [(1, 0xFFFF)] []) = true := by decide

theorem test_vector_A31 : goes (start [(0, 0x0010), (1, 0x0001)] [0xB698] [])
    (changed 0x400C 0x1002 [(0, 0x000F)] []) = true := by decide

theorem test_vector_A32 : goes (start [(1, 0x0001), (2, 0x0002)] [0x8B21] [])
    (changed 0x40A0 0x1002 [] []) = true := by decide

theorem test_vector_A33 : goes { start [(0, 0x0080), (1, 0x0001)] [0x8A98] [] with fcw := 0x400C#16 }
    (changed 0x401C 0x1002 [] []) = true := by decide

theorem test_vector_A34 : goes (start [(2, 0x1234), (3, 0x5678), (4, 0x1234), (5, 0x5678)] [0x9042] [])
    (changed 0x4040 0x1002 [] []) = true := by decide

theorem test_vector_A36 : goes (start [] [0x4C01, 0x4001, 0x4141] [(0x4001, 0x40)])
    (changed 0x40A0 0x1006 [] []) = true := by decide

theorem test_vector_A37 : goes (start [(2, 0x0002)] [0x4D21, 0x4000, 0x0001] [])
    (changed 0x40A0 0x1006 [] []) = true := by decide

theorem test_vector_A38 : goes { start [(1, 0x7FF8)] [0xA91F] [] with fcw := 0x4080#16 }
    (changed 0x40B0 0x1002 [(1, 0x8008)] []) = true := by decide

theorem test_vector_A40 : goes (start [(2, 0x4001)] [0x2820] [(0x4001, 0xFF)])
    (changed 0x4040 0x1002 [] [(0x4001, 0x00)]) = true := by decide

theorem test_vector_A42 : goes (start [(1, 0x8000)] [0xAB10] [])
    (changed 0x4010 0x1002 [(1, 0x7FFF)] []) = true := by decide

theorem test_vector_A43 : goes (start [(0, 0x0010)] [0xAA8F] [])
    (changed 0x4040 0x1002 [(0, 0x0000)] []) = true := by decide

theorem test_vector_A46 : goes (start [(1, 0x8000)] [0x8D12] [])
    (changed 0x40B0 0x1002 [] []) = true := by decide

theorem test_vector_A48 : goes (start [(0, 0x0080)] [0x8C82] [])
    (changed 0x40B0 0x1002 [] []) = true := by decide

theorem test_vector_A52 : goes (start [(0, 0x009A)] [0xB080] [])
    (changed 0x40C0 0x1002 [(0, 0x0000)] []) = true := by decide

theorem test_vector_A56 : goes { start [(0, 0x00D0)] [0xB080] [] with fcw := 0x4088#16 }
    (changed 0x4088 0x1002 [(0, 0x0070)] []) = true := by decide

theorem test_vector_A61 : goes (start [(3, 0x4000), (5, 0x0002)] [0x9952] [])
    (changed 0x4080 0x1002 [(3, 0x8000)] []) = true := by decide

theorem test_vector_A65 : stops (start [(3, 0x0002)] [0x9932] []) .overlappingRegisters = true := by
  decide

theorem test_vector_A66 : goes (start [(5, 0x0002), (10, 0xFFFF), (11, 0xFFFF)] [0x9848] [])
    (changed 0x4020 0x1002 [(8, 0xFFFF), (9, 0xFFFF), (11, 0xFFFE)] []) = true := by decide

theorem test_vector_A70 : goes (start [(2, 0xFFFF), (3, 0xFFF9), (5, 0x0002)] [0x9B52] [])
    (changed 0x4020 0x1002 [(3, 0xFFFD)] []) = true := by decide

theorem test_vector_A75 : goes (start [(3, 0xFFFF), (5, 0x0001)] [0x9B52] [])
    (changed 0x4090 0x1002 [] []) = true := by decide

theorem test_vector_A84 : goes (start [(5, 0x0002), (10, 0xFFFF), (11, 0xFFF9)] [0x9A48] [])
    (changed 0x4000 0x1002 [(9, 0x0001), (10, 0x7FFF), (11, 0xFFFC)] []) = true := by decide

theorem test_vector_A88 : goes (start [(2, 0x1234), (3, 0x7FFF)] [0xB12A] [])
    (changed 0x4000 0x1002 [(2, 0x0000)] []) = true := by decide

theorem test_vector_A90 : goes (start [(1, 0xFF7F)] [0xB110] [])
    (changed 0x4000 0x1002 [(1, 0x007F)] []) = true := by decide

theorem test_vector_A92 : goes (start [(6, 0x8000)] [0xB147] [])
    (changed 0x4000 0x1002 [(4, 0xFFFF), (5, 0xFFFF)] []) = true := by decide

/-! Logical, bit, flag and test. -/

theorem test_vector_L1 : goes { start [(1, 0xF0F0), (2, 0x0FF0)] [0x8721] [] with fcw := 0x4090#16 }
    (changed 0x4090 0x1002 [(1, 0x00F0)] []) = true := by decide

theorem test_vector_L3 : goes (start [(0, 0x00FF), (1, 0x0003)] [0x8698] [])
    (changed 0x4010 0x1002 [(0, 0x0003)] []) = true := by decide

theorem test_vector_L6 : goes (start [(1, 0x0001), (2, 0x4000)] [0x0521] [(0x4000, 0x80)])
    (changed 0x4020 0x1002 [(1, 0x8001)] []) = true := by decide

theorem test_vector_L7 : goes (start [(1, 0x0180)] [0x8491] [])
    (changed 0x4030 0x1002 [(1, 0x8180)] []) = true := by decide

theorem test_vector_L8 : goes (start [(1, 0x1234)] [0x8911] [])
    (changed 0x4040 0x1002 [(1, 0x0000)] []) = true := by decide

theorem test_vector_L9 : goes (start [(0, 0x00A5)] [0x0808, 0xFFFF] [])
    (changed 0x4010 0x1004 [(0, 0x005A)] []) = true := by decide

theorem test_vector_L10 : goes (start [(1, 0x00FF)] [0x8D10] [])
    (changed 0x4020 0x1002 [(1, 0xFF00)] []) = true := by decide

theorem test_vector_L11 : goes (start [(2, 0x4001)] [0x0C20] [(0x4001, 0xFE)])
    (changed 0x4000 0x1002 [] [(0x4001, 0x01)]) = true := by decide

theorem test_vector_L13 : goes (start [] [0x4C04, 0x4001] [(0x4001, 0x81)])
    (changed 0x4030 0x1004 [] []) = true := by decide

theorem test_vector_L15 : goes (start [(4, 0x4000)] [0x1C48] [(0x4000, 0x80)])
    (changed 0x4020 0x1002 [] []) = true := by decide

theorem test_vector_L18 : goes (start [(2, 0x4001)] [0x2627] [(0x4001, 0x80)])
    (changed 0x4000 0x1002 [] []) = true := by decide

theorem test_vector_L20 : goes (start [(1, 0xFFF4), (2, 0x0010)] [0x2701, 0x0200] [])
    (changed 0x4000 0x1004 [] []) = true := by decide

theorem test_vector_L21 : goes (start [(1, 0x000C), (2, 0x0010)] [0x2601, 0x0A00] [])
    (changed 0x4000 0x1004 [] []) = true := by decide

theorem test_vector_L22 : goes (start [] [0xA51F] [])
    (changed 0x4000 0x1002 [(1, 0x8000)] []) = true := by decide

theorem test_vector_L27 : goes (start [(1, 0x000F), (2, 0xFFFF)] [0x2201, 0x0200] [])
    (changed 0x4000 0x1004 [(2, 0x7FFF)] []) = true := by decide

theorem test_vector_L29 : goes (start [] [0x4C06, 0x4001] [(0x4001, 0x80)])
    (changed 0x4020 0x1004 [] [(0x4001, 0xFF)]) = true := by decide

theorem test_vector_L30 : goes (start [(2, 0x4000)] [0x0D26] [])
    (changed 0x4000 0x1002 [] [(0x4000, 0xFF), (0x4001, 0xFF)]) = true := by decide

theorem test_vector_L31 : goes { start [] [0xAF16] [] with fcw := 0x4040#16 }
    (changed 0x4040 0x1002 [(1, 0x0001)] []) = true := by decide

theorem test_vector_L36 : goes (start [] [0xAF1B] [])
    (changed 0x4000 0x1002 [(1, 0x0001)] []) = true := by decide

theorem test_vector_L37 : goes (start [] [0x8D91] [])
    (changed 0x4090 0x1002 [] []) = true := by decide

theorem test_vector_L38 : goes { start [] [0x8D63] [] with fcw := 0x40FC#16 }
    (changed 0x409C 0x1002 [] []) = true := by decide

theorem test_vector_L39 : goes (start [] [0x8D85] [])
    (changed 0x4084 0x1002 [] []) = true := by decide

/-! Program control. -/

theorem test_vector_C1 : goes (start [] [0xE8FF] [])
    (changed 0x4000 0x1000 [] []) = true := by decide

theorem test_vector_C8 : goes (start [(2, 0x3000)] [0x1E2E] [])
    (changed 0x4000 0x3000 [] []) = true := by decide

theorem test_vector_C13 : goes (start [(2, 0x0004)] [0x5F20, 0x3000] [])
    (changed 0x4000 0x3004 [(15, 0x7FFE)] [(0x7FFE, 0x10), (0x7FFF, 0x04)]) = true := by decide

theorem test_vector_C14 : goes (start [] [0x1FF0] [])
    (changed 0x4000 0x8000 [(15, 0x7FFE)] [(0x7FFE, 0x10), (0x7FFF, 0x02)]) = true := by decide

theorem test_vector_C17 : goes (start [] [0xD800] [])
    (changed 0x4000 0x2002 [(15, 0x7FFE)] [(0x7FFE, 0x10), (0x7FFF, 0x02)]) = true := by decide

theorem test_vector_C18 : goes (start [(15, 0x7FFE)] [0x9E08] [(0x7FFE, 0x12), (0x7FFF, 0x34)])
    (changed 0x4000 0x1234 [(15, 0x8000)] []) = true := by decide

theorem test_vector_C19 : goes (start [(15, 0x7FFE)] [0x9E06] [(0x7FFE, 0x12), (0x7FFF, 0x34)])
    (changed 0x4000 0x1002 [] []) = true := by decide

theorem test_vector_C21 : goes { start [(1, 0x0003)] [] [(0x1004, 0xF1), (0x1005, 0x82)] with pc := 0x1004#16 }
    (changed 0x4000 0x1002 [(1, 0x0002)] []) = true := by decide

theorem test_vector_C25 : goes { start [(0, 0x0155)] [] [(0x2000, 0xF0), (0x2001, 0x01)] with pc := 0x2000#16 }
    (changed 0x4000 0x2002 [(0, 0x0055)] []) = true := by decide

/-! Load, store, exchange and stack. -/

theorem test_vector_M9 : goes (start [(2, 0x4002)] [0x3121, 0xFFFE] [(0x4000, 0xBE), (0x4001, 0xEF)])
    (changed 0x4000 0x1004 [(1, 0xBEEF)] []) = true := by decide

theorem test_vector_M10 : goes (start [(2, 0x4000), (3, 0x0006)] [0x7121, 0x0300] [(0x4006, 0xBE), (0x4007, 0xEF)])
    (changed 0x4000 0x1004 [(1, 0xBEEF)] []) = true := by decide

theorem test_vector_M11 : goes (start [(1, 0x00FF), (2, 0x4001)] [0x2021] [(0x4001, 0x7E)])
    (changed 0x4000 0x1002 [(1, 0x7EFF)] []) = true := by decide

theorem test_vector_M14 : goes (start [(4, 0x5000)] [0x3542, 0x0004] [(0x5004, 0xAA), (0x5005, 0xAA), (0x5006, 0xBB), (0x5007, 0xBB)])
    (changed 0x4000 0x1004 [(2, 0xAAAA), (3, 0xBBBB)] []) = true := by decide

theorem test_vector_M17 : goes (start [(1, 0xCAFE), (2, 0x0008)] [0x6F21, 0x4000] [])
    (changed 0x4000 0x1004 [] [(0x4008, 0xCA), (0x4009, 0xFE)]) = true := by decide

theorem test_vector_M21 : goes (start [(2, 0x1234), (3, 0x5678), (4, 0x5000)] [0x1D42] [])
    (changed 0x4000 0x1002 [] [(0x5000, 0x12), (0x5001, 0x34), (0x5002, 0x56), (0x5003, 0x78)]) = true := by decide

theorem test_vector_M22 : goes (start [(2, 0x4000)] [0x0D25, 0x1234] [])
    (changed 0x4000 0x1004 [] [(0x4000, 0x12), (0x4001, 0x34)]) = true := by decide

theorem test_vector_M23 : goes (start [] [0x4C05, 0x4001, 0x7F7F] [])
    (changed 0x4000 0x1006 [] [(0x4001, 0x7F)]) = true := by decide

theorem test_vector_M28 : goes (start [(2, 0x4000), (3, 0x0102)] [0x7421, 0x0300] [])
    (changed 0x4000 0x1004 [(1, 0x4102)] []) = true := by decide

theorem test_vector_M30 : goes (start [] [0x3401, 0xFFFC] [])
    (changed 0x4000 0x1004 [(1, 0x1000)] []) = true := by decide

theorem test_vector_M31 : goes (start [(1, 0xFFFF)] [0xBD15] [])
    (changed 0x4000 0x1002 [(1, 0x0005)] []) = true := by decide

theorem test_vector_M33 : goes (start [(0, 0x00EE)] [0x3208, 0xFFFD] [])
    (changed 0x4000 0x1004 [] [(0x1001, 0xEE)]) = true := by decide

theorem test_vector_M36 : goes (start [] [0x5C01, 0x0E03, 0x6000] [(0x6001, 0x0E), (0x6002, 0x70), (0x6005, 0x10), (0x6007, 0x11)])
    (changed 0x4000 0x1006 [(0, 0x0010), (1, 0x0011), (14, 0x000E), (15, 0x7000)] []) = true := by decide

theorem test_vector_M38 : goes (start [(0, 0x0010), (8, 0x6000), (14, 0x000E), (15, 0x7000)] [0x1C89, 0x0E02] [])
    (changed 0x4000 0x1004 [] [(0x6001, 0x0E), (0x6002, 0x70), (0x6005, 0x10)]) = true := by decide

theorem test_vector_M41 : goes (start [(2, 0x4001)] [0x0C28] [(0x4000, 0xFF), (0x4001, 0xFF)])
    (changed 0x4000 0x1002 [] [(0x4001, 0x00)]) = true := by decide

theorem test_vector_M45 : goes (start [(0, 0x12AB)] [0xAC08] [])
    (changed 0x4000 0x1002 [(0, 0xAB12)] []) = true := by decide

theorem test_vector_M46 : goes (start [(1, 0x0011)] [0x6C09, 0x4001] [(0x4001, 0x22)])
    (changed 0x4000 0x1004 [(1, 0x0022)] [(0x4001, 0x11)]) = true := by decide

theorem test_vector_M48 : goes (start [] [0x93FF] [])
    (changed 0x4000 0x1002 [(15, 0x7FFE)] [(0x7FFE, 0x80)]) = true := by decide

theorem test_vector_M51 : goes (start [(2, 0x4000)] [0x13F2] [(0x4000, 0x55), (0x4001, 0x55)])
    (changed 0x4000 0x1002 [(15, 0x7FFE)] [(0x7FFE, 0x55), (0x7FFF, 0x55)]) = true := by decide

theorem test_vector_M53 : goes (start [(2, 0x1234), (3, 0x5678)] [0x91F2] [])
    (changed 0x4000 0x1002 [(15, 0x7FFC)] [(0x7FFC, 0x12), (0x7FFD, 0x34), (0x7FFE, 0x56), (0x7FFF, 0x78)]) = true := by decide

theorem test_vector_M56 : goes (start [(2, 0x4000), (15, 0x7FFE)] [0x17F2] [(0x7FFE, 0xBB), (0x7FFF, 0xBB)])
    (changed 0x4000 0x1002 [(15, 0x8000)] [(0x4000, 0xBB), (0x4001, 0xBB)]) = true := by decide

theorem test_vector_M59 : goes (start [(15, 0x7FFC)] [0x95F2] [(0x7FFC, 0x12), (0x7FFD, 0x34), (0x7FFE, 0x56), (0x7FFF, 0x78)])
    (changed 0x4000 0x1002 [(2, 0x1234), (3, 0x5678), (15, 0x8000)] []) = true := by decide

/-! Rotate and shift. -/

theorem test_vector_S2 : goes (start [(1, 0x4000)] [0xB312] [])
    (changed 0x4090 0x1002 [(1, 0x0001)] []) = true := by decide

theorem test_vector_S5 : goes { start [(0, 0x0040)] [0xB28A] [] with fcw := 0x4080#16 }
    (changed 0x4090 0x1002 [(0, 0x0002)] []) = true := by decide

theorem test_vector_S7 : goes (start [(0, 0x0002)] [0xB286] [])
    (changed 0x40B0 0x1002 [(0, 0x0080)] []) = true := by decide

theorem test_vector_S9 : goes { start [(0, 0x0001)] [0xB28E] [] with fcw := 0x4080#16 }
    (changed 0x4030 0x1002 [(0, 0x00C0)] []) = true := by decide

theorem test_vector_S10 : goes (start [(0, 0x0012), (1, 0x0034)] [0xBE98] [])
    (changed 0x4000 0x1002 [(0, 0x0013), (1, 0x0042)] []) = true := by decide

theorem test_vector_S11 : goes (start [(0, 0x0012), (1, 0x0034)] [0xBC98] [])
    (changed 0x4000 0x1002 [(0, 0x0014), (1, 0x0023)] []) = true := by decide

theorem test_vector_S15 : goes (start [(1, 0x0123)] [0xB319, 0x0004] [])
    (changed 0x4000 0x1004 [(1, 0x1230)] []) = true := by decide

theorem test_vector_S18 : goes (start [(1, 0x8000)] [0xB319, 0xFFF0] [])
    (changed 0x40A0 0x1004 [(1, 0xFFFF)] []) = true := by decide

theorem test_vector_S22 : goes (start [(0, 0x0082)] [0xB289, 0x00FE] [])
    (changed 0x40A0 0x1004 [(0, 0x00E0)] []) = true := by decide

theorem test_vector_S26 : goes (start [(2, 0x8000)] [0xB32D, 0xFFE1] [])
    (changed 0x4020 0x1004 [(2, 0xFFFF), (3, 0xFFFF)] []) = true := by decide

theorem test_vector_S28 : goes { start [] [0xB311, 0x0000] [] with fcw := 0x4080#16 }
    (changed 0x40C0 0x1004 [] []) = true := by decide

theorem test_vector_S31 : goes (start [(1, 0x8000), (2, 0xFFFD)] [0xB313, 0x0200] [])
    (changed 0x4010 0x1004 [(1, 0x1000)] []) = true := by decide

theorem test_vector_S32 : goes (start [(0, 0x0001), (2, 0x0007)] [0xB28B, 0x0200] [])
    (changed 0x4030 0x1004 [(0, 0x0080)] []) = true := by decide

theorem test_vector_S34 : goes (start [(2, 0xFFE0), (4, 0x8000)] [0xB34F, 0x0200] [])
    (changed 0x40A0 0x1004 [(4, 0xFFFF), (5, 0xFFFF)] []) = true := by decide

theorem test_vector_S36 : goes { start [] [0xB283, 0x0200] [] with fcw := 0x4080#16 }
    (changed 0x4040 0x1004 [] []) = true := by decide

/-! Block and string. -/

theorem test_vector_B1 : goes (start [(0, 0x0005), (1, 0x4000), (2, 0x0001)] [0xBB18, 0x0206] [(0x4001, 0x06)])
    (changed 0x40B0 0x1004 [(1, 0x3FFE), (2, 0x0000)] []) = true := by decide

theorem test_vector_B6 : goes (start [(0, 0x0080), (1, 0x4000), (2, 0x0001)] [0xBA10, 0x0281] [(0x4000, 0x01)])
    (changed 0x4050 0x1004 [(1, 0x4001), (2, 0x0000)] []) = true := by decide

theorem test_vector_B9 : goes (start [(1, 0x4000), (2, 0x0002), (3, 0x5000)] [0xBB1A, 0x0236] [(0x4001, 0x01), (0x5001, 0x02)])
    (changed 0x4000 0x1004 [(1, 0x3FFE), (2, 0x0001), (3, 0x4FFE)] []) = true := by decide

theorem test_vector_B15 : goes (start [(1, 0x4000), (2, 0x0001), (3, 0x5000)] [0xBB11, 0x0238] [(0x4000, 0x12), (0x4001, 0x34)])
    (changed 0x4050 0x1004 [(1, 0x4002), (2, 0x0000), (3, 0x5002)] [(0x5000, 0x12), (0x5001, 0x34)]) = true := by decide

theorem test_vector_B16 : goes (start [(1, 0x4000), (2, 0x0007), (3, 0x5001)] [0xBA11, 0x0238] [(0x4000, 0x7E)])
    (changed 0x4000 0x1004 [(1, 0x4001), (2, 0x0006), (3, 0x5002)] [(0x5001, 0x7E)]) = true := by decide

theorem test_vector_B17 : goes (start [(1, 0x4002), (2, 0x0002), (3, 0x5002)] [0xBB19, 0x0238] [(0x4002, 0xAA), (0x4003, 0xAA)])
    (changed 0x4000 0x1004 [(1, 0x4000), (2, 0x0001), (3, 0x5000)] [(0x5002, 0xAA), (0x5003, 0xAA)]) = true := by decide

theorem test_vector_B24 : goes (start [(1, 0x4000), (2, 0x6000), (3, 0x0001)] [0xB810, 0x0320] [(0x4000, 0x41), (0x6041, 0x61)])
    (changed 0x4010 0x1004 [(1, 0x4001), (3, 0x0000)] [(0x4000, 0x61)]) = true := by decide

theorem test_vector_B25 : goes (start [(1, 0x4005), (2, 0x6000), (3, 0x0002)] [0xB818, 0x0320] [(0x4005, 0x02), (0x6002, 0x99)])
    (changed 0x4000 0x1004 [(1, 0x4004), (3, 0x0001)] [(0x4005, 0x99)]) = true := by decide

theorem test_vector_B29 : goes (start [(1, 0x00BB), (2, 0x4000), (3, 0x6000), (4, 0x0001)] [0xB822, 0x0430] [(0x4000, 0x20), (0x6020, 0x80)])
    (changed 0x4010 0x1004 [(1, 0x80BB), (2, 0x4001), (4, 0x0000)] []) = true := by decide

theorem test_vector_B30 : goes (start [(1, 0xAABB), (2, 0x4003), (3, 0x6000), (4, 0x0005)] [0xB82A, 0x0430] [(0x4003, 0x10)])
    (changed 0x4040 0x1004 [(1, 0x00BB), (2, 0x4002), (4, 0x0004)] []) = true := by decide

/-! Input and output. -/

theorem test_vector_I6 : goes (start [(1, 0x1234), (2, 0x0040)] [0x3F21] [])
    (fun s => { changed 0x4000 0x1002 [] [] s with events := [.ioWrite .std 0x0040#16 2 0x1234#16] }) = true := by decide

theorem test_vector_I7 : goes (start [(0, 0x000D), (2, 0x0041)] [0x3E28] [])
    (fun s => { changed 0x4000 0x1002 [] [] s with events := [.ioWrite .std 0x0041#16 1 0x000D#16] }) = true := by decide

theorem test_vector_I17 : goes (start [(1, 0x0040), (2, 0x4002), (3, 0x0002)] [0x3B2A, 0x0318] [(0x4002, 0xCA), (0x4003, 0xFE)])
    (fun s => { changed 0x4000 0x1004 [(2, 0x4000), (3, 0x0001)] [] s with events := [.ioWrite .std 0x0040#16 2 0xCAFE#16] }) = true := by decide

theorem test_vector_I19 : goes (start [(1, 0x0100), (2, 0x4000), (3, 0x0005)] [0x3B23, 0x0318] [(0x4001, 0x01)])
    (fun s => { changed 0x4000 0x1004 [(2, 0x4002), (3, 0x0004)] [] s with events := [.ioWrite .special 0x0100#16 2 0x0001#16] }) = true := by decide

theorem test_vector_I21 : stops (start [(1, 0x5000)] [0x3B10, 0x0318] []) .overlappingRegisters = true := by
  decide

/-! CPU control. -/

theorem test_vector_Y2 : goes { start [] [0x7C00] [] with fcw := 0x5800#16 }
    (changed 0x4000 0x1002 [] []) = true := by decide

theorem test_vector_Y5 : goes (start [] [0x7C06] [])
    (changed 0x4800 0x1002 [] []) = true := by decide

theorem test_vector_Y8 : goes { start [] [0x7D1A] [] with fcw := 0x58FC#16 }
    (changed 0x4000 0x1002 [] []) = true := by decide

theorem test_vector_Y10 : goes (start [(1, 0x12FF)] [0x7D1D] [])
    (fun s => { changed 0x4000 0x1002 [] [] s with psap := 0x1200#16 }) = true := by decide

theorem test_vector_Y12 : goes (start [(5, 0x8123)] [0x7D5B] [])
    (fun s => { changed 0x4000 0x1002 [] [] s with refresh := 0x8123#16 }) = true := by decide

theorem test_vector_Y14 : goes (start [(4, 0xF000)] [0x7D4F] [])
    (fun s => { changed 0x4000 0x1002 [] [] s with nsp := 0xF000#16 }) = true := by decide

theorem test_vector_Y16 : goes { start [(0, 0x00FF)] [0x8C89] [] with fcw := 0x5800#16 }
    (changed 0x58FC 0x1002 [] []) = true := by decide

theorem test_vector_Y17 : goes { start [(1, 0x0077)] [0x8C11] [] with fcw := 0x58FC#16 }
    (changed 0x58FC 0x1002 [(1, 0xFC77)] []) = true := by decide

theorem test_vector_Y18 : goes (start [(2, 0x4000)] [0x3920] [(0x4000, 0x58), (0x4001, 0x80), (0x4002, 0x20)])
    (changed 0x5880 0x2000 [] []) = true := by decide

theorem test_vector_Y21 : goes (start [(15, 0x7FFA)] [0x7B00] [(0x7FFA, 0x7F), (0x7FFB, 0x05), (0x7FFC, 0x58), (0x7FFD, 0x80), (0x7FFE, 0x10), (0x7FFF, 0x02)])
    (changed 0x5880 0x1002 [(15, 0x8000)] []) = true := by decide

theorem test_vector_Y22 : goes (start [] [0x7A00] [])
    (fun s => { changed 0x4000 0x1002 [] [] s with halted := true }) = true := by decide

theorem test_vector_Y25 : goes (start [] [0x7B08] [])
    (fun s => { changed 0x4000 0x1002 [] [] s with mo := false, events := [.mob false] }) = true := by decide

/-! Traps and interrupts. -/

theorem test_vector_X1 : goes { start [] [0x7F05] [(0x020C, 0x40), (0x020E, 0x30)] with fcw := 0x5880#16, psap := 0x0200#16 }
    (changed 0x4000 0x3000 [(15, 0x7FFA)] [(0x7FFA, 0x7F), (0x7FFB, 0x05), (0x7FFC, 0x58), (0x7FFD, 0x80), (0x7FFE, 0x10), (0x7FFF, 0x02)]) = true := by decide

theorem test_vector_X5 : goes { start [] [0x3600] [(0x020C, 0x40), (0x020E, 0x30)] with psap := 0x0200#16 }
    (changed 0x4000 0x3000 [(15, 0x7FFA)] [(0x7FFA, 0x36), (0x7FFC, 0x40), (0x7FFE, 0x10), (0x7FFF, 0x02)]) = true := by decide

theorem test_vector_X9 : stops { start [] [0x7A01] [(0x020C, 0x40), (0x020E, 0x30)] with psap := 0x0200#16 } (.undecodable .unassignedOpcode) = true := by
  decide

theorem test_vector_X15 : goes { start [] [0x8D07] [(0x0218, 0x40), (0x021A, 0x32)] with fcw := 0x5000#16, psap := 0x0200#16, inputs := [{ Sample.quiet with nvi := true }] }
    (changed 0x5000 0x1002 [] []) = true := by decide

theorem test_vector_X22 : goes { start [] [] [(0x1000, 0x7A)] with halted := true, pc := 0x1002#16, inputs := [{ Sample.quiet with vi := true }] }
    (changed 0x4000 0x1002 [] []) = true := by decide

/-! Reset. -/

theorem test_vector_Z1 : goes { start [(1, 0x1234), (15, 0x8000)] [] [(0x0002, 0x40), (0x0004, 0x01)] with fcw := 0x58FC#16, psap := 0x1200#16, mo := false, halted := true, nmip := true, inputs := [{ Sample.quiet with reset := true }] }
    (fun s => { changed 0x4000 0x0100 [] [] s with psap := 0x0000#16, mo := true, halted := false, nmip := false, events := [.mob true] }) = true := by decide

/-! Witnesses: for every statement with hypotheses, a state and operands that meet them, clause by clause. -/

/-- A processor in Normal mode with both stack pointers even. -/
def normal : State := { State.reset with fcw := 0x0000#16, nsp := 0x2000#16 }

/-- A state in System mode with both interrupts enabled, at the code of `start`. -/
def enabled : State := { start [] [0x8121] [] with fcw := 0x5800#16 }

/-- A state with data at 0x4000 and pointers to it. -/
def data : State := start [(2, 0x4000), (4, 0x5000), (6, 0x0003), (5, 0x1234)] [] [(0x4000, 0x12), (0x4001, 0x34)]

theorem canEnter_of {s : State} (h : (evenAddress s.regs[15] && evenAddress s.psap) = true) : s.canEnter :=
  ⟨by simp_all, by simp_all⟩

theorem witness_DecodeReadsEncoded :
    (Instr.add 2 (.mem (.ir 15))).wellFormed = true ∧ (Instr.sra 1 0x8000).wellFormed = true := by decide

theorem witness_DecodedInstructionIsWellFormed :
    decode [0x4D51#16, 0x2000#16, 0x0007#16, 0xFFFF#16] = .ok (.cpMem (.x 0x2000 5) 7, [0xFFFF#16]) := by decide

theorem witness_TrappedWordsTrap :
    (trapKind 0x3600#16 = some .reserved ∧ (0x3600#16).extractLsb' 8 8 ≠ 0x7F#8) ∧
    (trapKind 0x0F0C#16 = some .epu ∧ (0x0F0C#16).extractLsb' 8 8 ≠ 0x7F#8) ∧
    (trapKind 0x7EFF#16 = some .reservedSc ∧ (0x7EFF#16).extractLsb' 8 8 ≠ 0x7F#8) := by decide

theorem witness_DecoderRefusesByName :
    ((0x0100#16).extractLsb' 8 8 ≠ (0x0100#16).extractLsb' 0 8 ∧ 0x20#6 ∈ [0x00#6, 0x20#6] ∧ 0x5#4 ∈ [0x1#4, 0x5#4]) ∧
    ((15 : RegCode) ≠ 0 ∧ n0Of 0x0129#16 ≠ 0x8#4 ∧ n0Of 0x0129#16 ≠ 0x0#4) ∧
    ((0x01#8 : Byte) ≠ 0 ∧ (0x08#8).extractLsb' 3 5 ≠ 0 ∧ (0xF#4 : Nibble) ≠ 0 ∧ 0x1#4 ≠ 0x0#4 ∧ 0x1#4 ≠ 0x7#4 ∧
      0x1#4 ≠ 0xA#4) := by decide

/-- The premises of a step that runs an instruction, for a state. -/
def undisturbed (s : State) : Prop :=
  s.sampleInputs.1.reset = false ∧ s.sampleInputs.2.interrupt s.sampleInputs.1 = none ∧ s.halted = false

theorem witness_StepRunsDecodedInstruction_runs :
    undisturbed (start [] [0x8121] []) ∧ evenAddress (start [] [0x8121] []).pc = true ∧
    decode (start [] [0x8121] []).instructionWords = .ok (.add 1 (.reg 2), [0x0000#16, 0x0000#16]) :=
  ⟨⟨rfl, rfl, rfl⟩, rfl, by decide⟩

theorem witness_StepRunsDecodedInstruction_refuses :
    undisturbed (start [] [0x7A01] []) ∧ evenAddress (start [] [0x7A01] []).pc = true ∧
    decode (start [] [0x7A01] []).instructionWords = .error .unassignedOpcode :=
  ⟨⟨rfl, rfl, rfl⟩, rfl, by decide⟩

/-- INDR with the reserved nibble 5, in Normal mode. -/
def reservedInput : State := { start [] [0x3B28, 0x0345] [] with fcw := 0x0000#16, psap := 0x0200#16 }

theorem witness_StepRunsDecodedInstruction_traps :
    undisturbed reservedInput ∧ evenAddress reservedInput.pc = true ∧
    decode reservedInput.instructionWords = .error .reservedConditionNibble ∧ reservedInput.sys = false ∧
    blockIoWord (reservedInput.wordAt .program reservedInput.pc) = true ∧ reservedInput.canEnter :=
  ⟨⟨rfl, rfl, rfl⟩, by decide, by decide, by decide, by decide, canEnter_of (by decide)⟩

/-- 60_exceptions.md R706: the trap comes before the second word, with the first word as the identifier. -/
theorem test_privileged_before_second_word :
    (match step reservedInput with
      | .next t => t.wordAt .stack 0x7FFA#16 == 0x3B28#16 && t.wordAt .stack 0x7FFE#16 == 0x1002#16
      | _ => false) = true := by decide

/-- In System mode the same words are refused (45_block_string.md R479). -/
theorem test_reserved_nibble_refused :
    stops { reservedInput with fcw := 0x4000#16 } (.undecodable .reservedConditionNibble) = true := by decide

theorem witness_StepRunsDecodedInstruction_odd :
    undisturbed { State.reset with pc := 0xFFFF#16 } ∧
      evenAddress ({ State.reset with pc := 0xFFFF#16 } : State).pc = false := ⟨⟨rfl, rfl, rfl⟩, rfl⟩

theorem witness_StepRunsEncodedInstruction :
    (Instr.ldImm (.da 0x4000) 0x1234).wellFormed = true ∧ (start [] [0x4D05, 0x4000, 0x1234] []).inputs = [] ∧
    (start [] [0x4D05, 0x4000, 0x1234] []).nmip = false ∧ (start [] [0x4D05, 0x4000, 0x1234] []).halted = false ∧
    evenAddress (start [] [0x4D05, 0x4000, 0x1234] []).pc = true ∧
    ∀ (k : Nat) (w : Word), (encode (.ldImm (.da 0x4000) 0x1234))[k]? = some w →
      (start [] [0x4D05, 0x4000, 0x1234] []).wordAt .program
        ((start [] [0x4D05, 0x4000, 0x1234] []).pc + BitVec.ofNat 16 (2 * k)) = w := by
  refine ⟨by decide, by decide, by decide, by decide, by decide, fun k w h => ?_⟩
  match k with
  | 0 => exact Option.some.inj (Eq.trans (by decide) h)
  | 1 => exact Option.some.inj (Eq.trans (by decide) h)
  | 2 => exact Option.some.inj (Eq.trans (by decide) h)
  | _ + 3 => cases h

theorem witness_EveryStepKeepsInvariant :
    (start [] [0x8121] []).Inv ∧ ∃ t, step (start [] [0x8121] []) = .next t :=
  ⟨⟨by decide, by decide, by decide⟩, _, rfl⟩

theorem witness_DeviceReset :
    ({ State.reset with inputs := [{ Sample.quiet with reset := true }] } : State).inputs =
      { Sample.quiet with reset := true } :: [] ∧ ({ Sample.quiet with reset := true } : Sample).reset = true := by decide

theorem witness_EntryPushesFrameAndLoadsStatus :
    ({ State.reset with psap := 0xFF00#16 } : State).canEnter ∧ evenAddress 0x021C#16 = true ∧
      evenAddress 0x0000#16 = true := ⟨canEnter_of (by decide), by decide, by decide⟩

theorem witness_SoftwareTrapsEnter : (start [] [] []).canEnter := canEnter_of (by decide)

theorem witness_PrivilegedInstructionTraps :
    (Instr.ldps (.da 0x4000)).isPrivileged = true ∧ normal.sys = false ∧ normal.canEnter :=
  ⟨by decide, by decide, canEnter_of (by decide)⟩

theorem witness_NonMaskableInterruptEnters :
    ({ enabled with inputs := [{ Sample.quiet with nmiEdge := true }] } : State).canEnter ∧
    ({ Sample.quiet with nmiEdge := true } : Sample).reset = false ∧
    ({ Sample.quiet with nmiEdge := true } : Sample).nmiEdge = true ∧
    ({ enabled with nmip := true, inputs := [Sample.quiet] } : State).canEnter ∧ Sample.quiet.reset = false ∧
    ({ enabled with nmip := true } : State).canEnter ∧ ({ enabled with nmip := true } : State).inputs = [] :=
  ⟨canEnter_of (by decide), by decide, by decide, canEnter_of (by decide), by decide, canEnter_of (by decide),
    by decide⟩

theorem witness_MaskableInterruptsEnter_vectored :
    ({ enabled with inputs := [{ Sample.quiet with vi := true, nvi := true }] } : State).canEnter ∧
    enabled.nmip = false ∧ ({ Sample.quiet with vi := true, nvi := true } : Sample).reset = false ∧
    ({ Sample.quiet with vi := true, nvi := true } : Sample).nmiEdge = false ∧ enabled.vie = true :=
  ⟨canEnter_of (by decide), by decide, by decide, by decide, by decide⟩

theorem witness_MaskableInterruptsEnter_nonVectored :
    ({ enabled with fcw := 0x4800#16, inputs := [{ Sample.quiet with vi := true, nvi := true }] } : State).canEnter ∧
    ¬(({ Sample.quiet with vi := true, nvi := true } : Sample).vi = true ∧
      ({ enabled with fcw := 0x4800#16 } : State).vie = true) ∧
    ({ enabled with fcw := 0x4800#16 } : State).nvie = true :=
  ⟨canEnter_of (by decide), by decide, by decide⟩

theorem witness_DisabledRequestsAreNotAccepted :
    (State.reset.nmip = false ∧ ({ State.reset with halted := true } : State).inputs = []) ∧
    (({ Sample.quiet with vi := true, nvi := true } : Sample).reset = false ∧
      ({ Sample.quiet with vi := true, nvi := true } : Sample).nmiEdge = false ∧ State.reset.vie = false ∧
      State.reset.nvie = false ∧ State.reset.halted = false) := by decide

theorem witness_InterruptReturnRestores : State.reset.sys = true ∧ evenAddress State.reset.regs[15] = true := by decide

theorem witness_EntryThenReturnRestores :
    (start [] [0x7F05] []).Inv ∧ evenAddress (start [] [0x7F05] []).regs[15] = true ∧
    ∃ t, (start [] [0x7F05] []).trapEntry 0x7F05#16 0x1002#16 0x000C#16 0x000E#16 = .ok t :=
  ⟨⟨by decide, by decide, by decide⟩, by decide, _, rfl⟩

theorem witness_RegistersAndOperands :
    (7 : RegCode).getLsbD 3 = false ∧ (0 : RegCode).getLsbD 3 = false ∧ pairCode 14 = true ∧ quadCode 12 = true ∧
      evenAddress (State.reset.memLoc (.da 0xFFFE)).2 = true ∧ evenAddress (data.ldDstLoc (.ba 2 0xFFFE)).2 = true ∧
      evenAddress (data.ldDstLoc (.bx 2 4)).2 = true := by decide

theorem witness_MemoryIsBigEndian : evenAddress 0xFFFE#16 = true ∧ evenAddress 0xFFFF#16 = false := by decide

theorem witness_OddAddressesAreRefused :
    (evenAddress (State.reset.memLoc (.da 0xFFFF)).2 = false ∧ State.reset.sys = true ∧ quadCode 12 = true) ∧
    (evenAddress (State.reset.ldDstLoc (.ba 1 0x0001)).2 = false ∧
      evenAddress ((start [(2, 0x0001)] [] []).ldDstLoc (.bx 1 2)).2 = false) ∧
    (evenAddress ((start [(15, 0x0001)] [] []).reg 15) = false ∧ (start [(15, 0x0001)] [] []).sys = true ∧
      (start [(15, 0x0001)] [] []).cond .always = true) ∧
    (evenAddress (data.pc + 0xEFFF#16) = false ∧ pairCode 14 = true) ∧
    ((4 : RegCode) ≠ 0 ∧ (2 : RegCode) ≠ 0 ∧ (4 : RegCode) ≠ 2 ∧ (4 : RegCode) ≠ 6 ∧ (2 : RegCode) ≠ 6 ∧
      evenAddress ((start [(2, 0xFFFF)] [] []).reg 2) = false ∧ (2 : RegCode) ≠ 4 + 1 ∧
      evenAddress ((start [(4, 0x0001)] [] []).reg 4) = false ∧ (start [(4, 0x0001)] [] []).sys = true) := by decide

theorem witness_IllegalFieldsAreRefused :
    (pairCode 15 = false ∧ State.reset.ldSrcLong (.imm 0x12345678#32) = .ok 0x12345678#32 ∧
      evenAddress (data.pc + 0xEFFE#16) = true ∧ (2 : RegCode) ≠ 15 ∧ (2 : RegCode) ≠ 15 + 1 ∧
      evenAddress (data.reg 2) = true) ∧ quadCode 14 = false ∧
    (pairCode 14 = true ∧ (15 : RegCode) = 14 + 1) ∧ (quadCode 12 = true ∧ (14 : RegCode) = 12 + 2) ∧
    ((1 : RegCode) ≠ 0 ∧ byteHome 9 = 1 ∧ byteHome 1 = 1) ∧ State.reset.sys = true := by decide

theorem witness_ConditionsTestFlagsAndCompare :
    State.reset.srcWord (.imm 0x8000#16) = .ok 0x8000#16 ∧
      State.reset.srcWord (.mem (.da 0xFFFE)) = .ok 0x0000#16 := by decide

theorem witness_helpers : 0 < 8 ∧ 0 < 16 ∧ 0 < 32 := by decide

theorem witness_DivisionHelper_cases :
    divideInt 16 7 0 = .byZero ∧ divideInt 16 (-32768) 1 = .fits (-32768) 0 ∧ divideInt 16 32768 1 = .wide 32768 0 ∧
      divideInt 16 65536 1 = .tooLarge := by decide

theorem witness_WordAndLongArithmeticAndLogic :
    data.srcWord (.mem (.ir 2)) = .ok 0x1234#16 ∧ pairCode 14 = true ∧ data.srcLong (.mem (.da 0x4000)) = .ok 0x12340000#32 := by
  decide

theorem witness_ByteArithmeticAndLogic :
    data.srcByte (.mem (.x 1 2)) = .ok 0x34#8 ∧
      true = decide ((List.range 8).countP (fun k => (0x00#8 : Byte).getLsbD k) % 2 = 0) ∧
      0x00#8 = State.reset.byteReg 3 &&& 0x34#8 := by decide

theorem witness_ComparesAndTestsWriteFlagsOnly :
    data.srcWord (.reg 5) = .ok 0x1234#16 ∧ data.srcByte (.imm 0xFF#8) = .ok 0xFF#8 ∧
    (pairCode 4 = true ∧ data.srcLong (.reg 2) = .ok 0x40000000#32) ∧ data.dstWord (.mem (.da 0x4000)) = .ok 0x1234#16 ∧
    data.dstByte (.mem (.da 0x4001)) = .ok 0x34#8 ∧ data.dstLong (.mem (.da 0xFFFE)) = .ok 0x00000000#32 := by decide

theorem witness_WordReadModifyWrite :
    data.dstWord (.reg 15) = .ok 0x8000#16 ∧ data.dstWord (.mem (.ir 2)) = .ok 0x1234#16 := by decide

theorem witness_ByteReadModifyWrite :
    data.dstByte (.reg 13) = .ok 0x34#8 ∧ data.dstByte (.mem (.x 1 2)) = .ok 0x34#8 := by decide

theorem witness_BitsClearedAndSet :
    data.dstWord (.mem (.da 0x4000)) = .ok 0x1234#16 ∧ data.dstByte (.reg 5) = .ok 0x12#8 := by decide

theorem witness_FlagAndConditionInstructions : State.reset.cond .always = true ∧ State.reset.cond .z = false := by decide

theorem witness_MultiplyGivesExactProduct :
    (pairCode 2 = true ∧ (Src.reg 4 : Src 16) ≠ .reg 2 ∧ (Src.reg 4 : Src 16) ≠ .reg (2 + 1) ∧
      data.srcWord (.reg 4) = .ok 0x5000#16) ∧
    (quadCode 12 = true ∧ (Src.reg 2 : Src 32) ≠ .reg 12 ∧ (Src.reg 2 : Src 32) ≠ .reg (12 + 2) ∧
      data.srcLong (.reg 2) = .ok 0x40000000#32) := by decide

theorem witness_DivideGivesQuotientAndRemainder :
    (pairCode 2 = true ∧ (Src.reg 6 : Src 16) ≠ .reg 2 ∧ (Src.reg 6 : Src 16) ≠ .reg (2 + 1) ∧
      data.srcWord (.reg 6) = .ok 0x0003#16 ∧ (0x40000000#32 : Long) = data.reg 2 ++ data.reg (2 + 1) ∧
      divideInt 16 (0x40000000#32).toInt (0x0003#16).toInt = .tooLarge) ∧
    divideInt 16 (0x00007FFF#32).toInt (0x0001#16).toInt = .fits 32767 0 ∧
    divideInt 16 (0x00008000#32).toInt (0x0001#16).toInt = .wide 32768 0 ∧
    divideInt 16 (0x40000000#32).toInt (0x0000#16).toInt = .byZero ∧
    (quadCode 12 = true ∧ data.srcLong (.imm 0x00000001#32) = .ok 0x00000001#32 ∧
      (0x0000000000008000#64 : Quad) = data.reg 12 ++ data.reg (12 + 1) ++ (data.reg (12 + 2) ++ data.reg (12 + 3)) ∧
      divideInt 32 (0x0000000000008000#64).toInt (0x00000001#32).toInt = .fits 32768 0) ∧
    divideInt 32 (0x0000000080000000#64).toInt (0x00000001#32).toInt = .wide 2147483648 0 ∧
    divideInt 32 (0x0000000100000000#64).toInt (0x00000001#32).toInt = .tooLarge ∧
    divideInt 32 (0x0000000080000000#64).toInt (0x00000000#32).toInt = .byZero := by decide

theorem witness_SignExtensionFillsUpperHalf : pairCode 14 = true ∧ quadCode 12 = true := by decide

theorem witness_DecimalAdjust_addition :
    (addWith (BitVec.ofNat 8 (16 * 9 + 9)) (BitVec.ofNat 8 (16 * 9 + 9)) true).value = 0x33#8 ∧
      (addWith (BitVec.ofNat 8 (16 * 9 + 9)) (BitVec.ofNat 8 (16 * 9 + 9)) true).c = true ∧
      (addWith (BitVec.ofNat 8 (16 * 9 + 9)) (BitVec.ofNat 8 (16 * 9 + 9)) true).h = true ∧
      (start [(0, 0x0033)] [] []).byteReg 8 = 0x33#8 ∧
      ({ start [(0, 0x0033)] [] [] with fcw := 0x4084#16 } : State).carry = true ∧
      ({ start [(0, 0x0033)] [] [] with fcw := 0x4084#16 } : State).halfCarry = true ∧
      ({ start [(0, 0x0033)] [] [] with fcw := 0x4084#16 } : State).decimal = false := by decide

theorem witness_DecimalAdjust_subtraction :
    (subWith (BitVec.ofNat 8 (16 * 0 + 0)) (BitVec.ofNat 8 (16 * 9 + 9)) true).value = 0x66#8 ∧
      (subWith (BitVec.ofNat 8 (16 * 0 + 0)) (BitVec.ofNat 8 (16 * 9 + 9)) true).c = true ∧
      (subWith (BitVec.ofNat 8 (16 * 0 + 0)) (BitVec.ofNat 8 (16 * 9 + 9)) true).h = true ∧
      (start [(0, 0x0066)] [] []).byteReg 8 = 0x66#8 ∧
      ({ start [(0, 0x0066)] [] [] with fcw := 0x408C#16 } : State).carry = true ∧
      ({ start [(0, 0x0066)] [] [] with fcw := 0x408C#16 } : State).halfCarry = true ∧
      ({ start [(0, 0x0066)] [] [] with fcw := 0x408C#16 } : State).decimal = true := by decide

theorem witness_CallsAndReturns :
    evenAddress (State.reset.reg 15) = true ∧ State.reset.cond .always = true ∧ State.reset.cond .f = false := by decide

theorem witness_LoadsFillRegisters :
    data.ldSrcWord (.bx 2 0) = .ok 0x1234#16 ∧ data.ldSrcByte (.ba 2 1) = .ok 0x34#8 ∧
    (pairCode 14 = true ∧ data.ldSrcLong (.mem (.ir 2)) = .ok 0x12340000#32) ∧
    evenAddress (data.pc + 0xEFFE#16) = true := by decide

theorem witness_StoresFillMemory :
    evenAddress (data.ldDstLoc (.bx 2 4)).2 = true ∧ pairCode 0 = true ∧ evenAddress (data.memLoc (.da 0xFFFE)).2 = true ∧
      evenAddress (data.pc + 0xEFFE#16) = true := by decide

theorem witness_ExchangesSwap : evenAddress (data.memLoc (.ir 2)).2 = true := by decide

theorem witness_LoadMultipleMovesConsecutive : evenAddress (data.memLoc (.da 0xFFFE)).2 = true := by decide

theorem witness_PushesStoreBelow :
    evenAddress (State.reset.reg 15) = true ∧ data.dstWord (.mem (.ir 2)) = .ok 0x1234#16 ∧
      data.dstLong (.reg 2) = .ok 0x40000000#32 := by decide

theorem witness_PopsLoadAndRelease :
    evenAddress (data.reg 15) = true ∧ (1 : RegCode) ≠ 15 ∧ evenAddress (data.memLoc (.ir 2)).2 = true ∧
      (pairCode 12 = true ∧ (15 : RegCode) ≠ 12 ∧ (15 : RegCode) ≠ 12 + 1) := by decide

theorem witness_RotatesWriteRegisterAndFlags :
    (8 : RegCode) ≠ 13 ∧ data.byteReg 8 = (0x0#4 ++ 0x0#4 : Byte) ∧ data.byteReg 13 = (0x3#4 ++ 0x4#4 : Byte) := by decide

theorem witness_ShiftsWriteRegisterAndFlags : pairCode 0 = true ∧ pairCode 14 = true := by decide

/-- The premises on the registers of a block instruction with two pointers and a counter. -/
def separate (s : State) (d p r : RegCode) : Prop :=
  p ≠ 0 ∧ d ≠ 0 ∧ d ≠ p ∧ d ≠ r ∧ p ≠ r ∧ evenAddress (s.reg p) = true ∧ evenAddress (s.reg d) = true

theorem witness_BlockCompareIterates :
    separate data 4 2 6 ∧ ((2 : RegCode) ≠ 0 ∧ byteHome 13 ≠ 2 ∧ byteHome 13 ≠ 6 ∧ (2 : RegCode) ≠ 6) := by
  unfold separate; decide

theorem witness_BlockLoadIterates : separate data 4 2 6 ∧ separate data 15 2 0 := by unfold separate; decide

theorem witness_TranslateIterates : separate data 2 4 6 := by unfold separate; decide

theorem witness_TranslateTestIterates :
    separate data 2 4 6 ∧ (2 : RegCode) ≠ 1 ∧ (4 : RegCode) ≠ 1 ∧ (6 : RegCode) ≠ 1 := by unfold separate; decide

theorem witness_SingleInputAndOutput : State.reset.sys = true := by decide

theorem witness_BlockInputIterates : data.sys = true ∧ separate data 2 5 6 := by unfold separate; decide

theorem witness_BlockOutputIterates : data.sys = true ∧ separate data 5 2 6 := by unfold separate; decide

theorem witness_ControlRegisterMoves : data.sys = true ∧ evenAddress (data.memLoc (.ir 2)).2 = true := by decide

/-- The level of MIB is a free value, so that neither clause of MREQ can be met by evaluation; one of them always is. -/
theorem witness_HaltNopAndMultiMicro :
    State.reset.sys = true ∧ (Config.mibLevel 0 [] 0 = false ∨ (Config.mibLevel 0 [] 0 = true ∧
      (Config.mibLevel 0 [.mob false] 1 = false ∨ Config.mibLevel 0 [.mob false] 1 = true))) := by
  refine ⟨by decide, ?_⟩
  cases Config.mibLevel 0 [] 0 <;> cases Config.mibLevel 0 [.mob false] 1 <;> simp


theorem witness_NopOnlyAdvances :
    0xF#4 ≠ 0x0#4 ∧ (start [] [0x8D07] []).inputs = [] ∧ (start [] [0x8D07] []).nmip = false ∧
    (start [] [0x8D07] []).halted = false ∧ evenAddress (start [] [0x8D07] []).pc = true ∧
    (start [] [0x8D07] []).wordAt .program (start [] [0x8D07] []).pc = 0x8D07#16 := by decide
end Sys2Proof.Tests
end

/-! Steps, resets and entries: the three statements of the family 00_scope. -/

namespace Sys2Proof.Machine

open Sys2Proof

/-! The beginning of a step touches the clock, the inputs and the NMI latch only (60_exceptions.md R712). -/

@[simp] theorem State.sampleInputs_regs (s : State) : s.sampleInputs.2.regs = s.regs := by
  unfold State.sampleInputs; split <;> rfl
@[simp] theorem State.sampleInputs_pc (s : State) : s.sampleInputs.2.pc = s.pc := by
  unfold State.sampleInputs; split <;> rfl
@[simp] theorem State.sampleInputs_fcw (s : State) : s.sampleInputs.2.fcw = s.fcw := by
  unfold State.sampleInputs; split <;> rfl
@[simp] theorem State.sampleInputs_psap (s : State) : s.sampleInputs.2.psap = s.psap := by
  unfold State.sampleInputs; split <;> rfl
@[simp] theorem State.sampleInputs_halted (s : State) : s.sampleInputs.2.halted = s.halted := by
  unfold State.sampleInputs; split <;> rfl
@[simp] theorem State.sampleInputs_mem (s : State) : s.sampleInputs.2.mem = s.mem := by
  unfold State.sampleInputs; split <;> rfl

@[simp] theorem State.sampleInputs_sys (s : State) : s.sampleInputs.2.sys = s.sys := by simp [State.sys]

@[simp] theorem State.sampleInputs_wordAt (s : State) (sp : Space) (a : Word) :
    s.sampleInputs.2.wordAt sp a = s.wordAt sp a := State.wordAt_congr s.sampleInputs_mem sp a

@[simp] theorem State.sampleInputs_instructionWords (s : State) :
    s.sampleInputs.2.instructionWords = s.instructionWords := by simp [State.instructionWords]

theorem State.sampleInputs_quiet {s : State} (h : s.inputs = []) :
    s.sampleInputs = (Sample.quiet, { s with clock := s.clock + 1 }) := by simp [State.sampleInputs, h]

theorem State.sampleInputs_cons {s : State} {now : Sample} {later : List Sample} (h : s.inputs = now :: later) :
    s.sampleInputs = (now, { s with clock := s.clock + 1, inputs := later, nmip := s.nmip || now.nmiEdge }) := by
  simp [State.sampleInputs, h]

/-- With nothing asserted, only a remembered NMI is accepted (R714). -/
theorem State.interrupt_quiet {s : State} (h : s.nmip = false) : s.interrupt Sample.quiet = none := by
  simp [State.interrupt, Sample.quiet, h]

/-! What a step is, by the branches of `step` and `runInstruction`. -/

/-- A requested reset comes first. -/
theorem step_of_reset {s : State} (h : s.sampleInputs.1.reset = true) : step s = .next s.sampleInputs.2.deviceReset := by
  simp [step, h]

/-- With no reset, nothing accepted and the processor not halted, a step runs an instruction. -/
theorem step_of_undisturbed {s : State} (hr : s.sampleInputs.1.reset = false)
    (hi : s.sampleInputs.2.interrupt s.sampleInputs.1 = none) (hh : s.halted = false) :
    step s = runInstruction s.sampleInputs.2 := by
  simp [step, hr, hi, hh]

theorem runInstruction_of_decode {s : State} {i : Instr} {rest : List Word} (hp : evenAddress s.pc = true)
    (hd : decode s.instructionWords = .ok (i, rest)) : runInstruction s = exec i (s.advance rest) := by
  simp [runInstruction, hp, hd]

theorem runInstruction_of_error {s : State} {why : DecodeError} (hp : evenAddress s.pc = true)
    (hd : decode s.instructionWords = .error why) : runInstruction s = s.undecoded why := by
  simp [runInstruction, hp, hd]

theorem runInstruction_of_odd {s : State} (hp : evenAddress s.pc = false) :
    runInstruction s = .refused .oddProgramCounter := by
  simp [runInstruction, hp]

/-- The pc past the words taken, two bytes for each of them. -/
theorem State.advance_eq (s : State) (rest : List Word) :
    s.advance rest = { s with pc := s.pc + BitVec.ofNat 16 (2 * (3 - rest.length)) } := by
  rw [State.advance, Nat.mul_sub]

/-! Entering a trap or an interrupt (60_exceptions.md R701, R702): the frame of three words, and what is left alone. -/

section Frame
variable (s : State) (identifier savedPc : Word)

@[simp] theorem State.framed_regs : (s.framed identifier savedPc).regs = s.regs.set 15 (s.regs[15] - 6#16) := rfl
@[simp] theorem State.framed_nsp : (s.framed identifier savedPc).nsp = s.nsp := rfl
@[simp] theorem State.framed_psap : (s.framed identifier savedPc).psap = s.psap := rfl
@[simp] theorem State.framed_refresh : (s.framed identifier savedPc).refresh = s.refresh := rfl
@[simp] theorem State.framed_mo : (s.framed identifier savedPc).mo = s.mo := rfl
@[simp] theorem State.framed_nmip : (s.framed identifier savedPc).nmip = s.nmip := rfl
@[simp] theorem State.framed_inputs : (s.framed identifier savedPc).inputs = s.inputs := rfl
@[simp] theorem State.framed_events : (s.framed identifier savedPc).events = s.events := rfl
@[simp] theorem State.framed_clock : (s.framed identifier savedPc).clock = s.clock := rfl

theorem State.framed_identifier (sp : Space) :
    (s.framed identifier savedPc).wordAt sp (s.regs[15] - 6) = identifier := State.wordAt_putWord_same _ _ _ _ _

theorem State.framed_savedStatus (sp : Space) : (s.framed identifier savedPc).wordAt sp (s.regs[15] - 4) = s.fcw := by
  unfold State.framed
  rw [State.wordAt_putWord_other _ _ _ _ (by bv_omega) (by bv_omega) (by bv_omega)]
  exact State.wordAt_putWord_same _ _ _ _ _

theorem State.framed_savedPc (sp : Space) : (s.framed identifier savedPc).wordAt sp (s.regs[15] - 2) = savedPc := by
  unfold State.framed
  rw [State.wordAt_putWord_other _ _ _ _ (by bv_omega) (by bv_omega) (by bv_omega),
    State.wordAt_putWord_other _ _ _ _ (by bv_omega) (by bv_omega) (by bv_omega)]
  exact State.wordAt_putWord_same _ _ _ _ _

/-- The frame takes the six bytes below the stack pointer and no other. -/
theorem State.framed_readByte (sp : Space) (a : Word)
    (h : a ∉ [s.regs[15] - 1, s.regs[15] - 2, s.regs[15] - 3, s.regs[15] - 4, s.regs[15] - 5, s.regs[15] - 6]) :
    (s.framed identifier savedPc).readByte sp a = s.readByte sp a := by
  simp only [List.mem_cons, List.not_mem_nil, or_false, not_or] at h
  obtain ⟨h1, h2, h3, h4, h5, h6⟩ := h
  unfold State.framed
  rw [State.readByte_putWord_other _ _ _ _ (by bv_omega) (by bv_omega),
    State.readByte_putWord_other _ _ _ _ (by bv_omega) (by bv_omega),
    State.readByte_putWord_other _ _ _ _ (by bv_omega) (by bv_omega)]
  exact State.readByte_congr rfl sp a

end Frame

/-- An entry from an even stack pointer and an even Program Status Area is made, and leaves what R701 and R702 say. -/
theorem State.trapEntry_entered {s : State} (identifier savedPc : Word) {fcwOffset pcOffset : Word} (h : s.canEnter)
    (hf : evenAddress fcwOffset = true) (hp : evenAddress pcOffset = true) :
    ∃ t, s.trapEntry identifier savedPc fcwOffset pcOffset = .ok t ∧
      Entered identifier savedPc fcwOffset pcOffset s t := by
  obtain ⟨hsp, hpsap⟩ := h
  refine ⟨_, State.trapEntry_eq hsp (evenAddress_add hpsap hf) (evenAddress_add hpsap hp), ?_⟩
  exact {
    stackPointer := by simp
    savedPc := State.framed_savedPc s identifier savedPc .stack
    savedStatus := State.framed_savedStatus s identifier savedPc .stack
    identifier := State.framed_identifier s identifier savedPc .stack
    status := rfl
    pc := rfl
    halted := rfl
    registers := fun q hq => by
      have : (15 : Nat) ≠ q := fun e => hq (Fin.ext e.symm)
      simp [this]
    bytes := fun sp a ha => State.framed_readByte s identifier savedPc sp a ha
    nsp := rfl
    psap := rfl
    refresh := rfl
    mo := rfl
    nmip := rfl
    inputs := rfl
    events := rfl
    clock := rfl }

/-! The device reset (70_reset_and_hazards.md R800). -/

/-- What a reset leaves, field by field; what it reads of memory is what stood there. -/
theorem State.deviceReset_eq (s : State) : s.deviceReset = { s with
    psap := 0x0000#16, refresh := s.refresh &&& 0x7FFF#16, nmip := false, halted := false, mo := true
    fcw := fcwMask (s.wordAt .program 0x0002#16), pc := s.wordAt .program 0x0004#16
    events := if s.mo then s.events else s.events ++ [.mob true] } := by
  cases h : s.mo <;> simp [State.deviceReset, State.setMob, State.loadStatus, h, State.wordAt, State.readByte]

end Sys2Proof.Machine

section
open Sys2Proof Sys2Proof.Machine

/-- Settles O11: this step's sample requests the reset, which comes before everything else. -/
theorem deviceReset : Obligations.DeviceReset := by
  intro s now later hin hreset
  have hs := State.sampleInputs_cons hin
  rw [step_of_reset (by rw [hs]; exact hreset), State.deviceReset_eq, hs]
  rfl

/-- Settles O6, by the branches of `runInstruction`: words that decode, words that do not (refused, or trapped in Normal
mode), and an odd pc. -/
theorem stepRunsDecodedInstruction : Obligations.StepRunsDecodedInstruction := by
  intro s hreset hint hhalt
  rw [step_of_undisturbed hreset hint hhalt]
  refine ⟨fun i rest hp hd => ?runs, fun why hp hd => ?undecoded, fun hp => ?odd⟩
  case runs =>
    rw [runInstruction_of_decode (by simpa using hp) (by simpa using hd), State.advance_eq, State.sampleInputs_pc]
  case odd => exact runInstruction_of_odd (by simpa using hp)
  case undecoded =>
    rw [runInstruction_of_error (by simpa using hp) (by simpa using hd)]
    refine ⟨fun h => State.undecoded_refused why (by simpa using h), fun hs hw he => ?_⟩
    have he' : s.sampleInputs.2.canEnter := by simpa [State.canEnter] using he
    obtain ⟨t, ht, hentered⟩ := State.trapEntry_entered (s.wordAt .program s.pc) (s.pc + 2) he'
      (fcwOffset := 0x0008#16) (pcOffset := 0x000A#16) rfl rfl
    refine ⟨t, ?_, hentered⟩
    rw [State.undecoded_traps why (by simpa using hs) (by simpa using hw), State.sampleInputs_wordAt,
      State.sampleInputs_pc, ht]
    rfl
end

/-! Decoding what was encoded (30_encoding.md R100 to R144). First: the line of the decoder that a first word selects. -/

namespace Sys2Proof

open Sys2Proof.Laws

/-- No row of the trapped list fits the upper byte of a first word with this mode and opcode, whatever its lower byte is. -/
def opcodeUntrapped (m : BitVec 2) (op : BitVec 6) : Bool :=
  (trappedListA ++ trappedListB).all fun row => word1 m op 0x0#4 0x0#4 &&& row.mask != 0xFF00#16 &&& row.pattern

theorem word1_and_upper (m : BitVec 2) (op : BitVec 6) (n1 n0 : Nibble) :
    0xFF00#16 &&& word1 m op n1 n0 = word1 m op 0x0#4 0x0#4 := by
  apply BitVec.eq_of_getLsbD_eq
  intro i hi
  rw [BitVec.getLsbD_and, word1_getLsbD, word1_getLsbD]
  interval_cases i <;> simp

/-- Such a first word is not in the list. -/
theorem trapKind_of_opcode {m : BitVec 2} {op : BitVec 6} {n1 n0 : Nibble}
    (h : opcodeUntrapped m op = true := by rfl) : trapKind (word1 m op n1 n0) = none := by
  simp only [trapKind, Option.map_eq_none_iff, List.find?_eq_none, beq_iff_eq]
  intro row hrow e
  have hne := List.all_eq_true.mp h row hrow
  rw [bne_iff_ne] at hne
  exact hne (by rw [← e, ← BitVec.and_assoc, word1_and_upper])

/-- The same for the opcode in every mode. -/
theorem trapKind_of_modes {op : BitVec 6} {n0 : Nibble} (h : ∀ m, opcodeUntrapped m op = true := by decide)
    (m : BitVec 2) : trapKind (word1 m op 0x0#4 n0) = none := trapKind_of_opcode (h m)

section FirstWord
variable {op : BitVec 6} {n1 n0 : Nibble}

/-- Mode 00: an untrapped first word is read by `decode00`. -/
theorem decode_mode00 (h : trapKind (word1 0b00#2 op 0x0#4 n0) = none) (ws : List Word) :
    decode (word1 0b00#2 op n1 n0 :: ws) = decode00 (word1 0b00#2 op n1 n0) op n1 n0 ws := by
  simp [decode, trapInstr_word1 n1 h]

/-- Mode 01: an untrapped first word is read by `decode01`. -/
theorem decode_mode01 (h : trapKind (word1 0b01#2 op 0x0#4 n0) = none) (ws : List Word) :
    decode (word1 0b01#2 op n1 n0 :: ws) = decode01 (word1 0b01#2 op n1 n0) op n1 n0 ws := by
  simp [decode, trapInstr_word1 n1 h]

/-- Mode 10: an untrapped first word is read by `decode10`. -/
theorem decode_mode10 (h : trapKind (word1 0b10#2 op 0x0#4 n0) = none) (ws : List Word) :
    decode (word1 0b10#2 op n1 n0 :: ws) = decode10 (word1 0b10#2 op n1 n0) op n1 n0 ws := by
  simp [decode, trapInstr_word1 n1 h]

/-- The compact format is read by `decode11`. -/
theorem decode_compact (kind : BitVec 2) (n2 n1 n0 : Nibble) (ws : List Word) :
    decode (compact kind n2 n1 n0 :: ws) = decode11 kind n2 n1 n0 ws := by
  simp [decode]

end FirstWord

/-- SC is in the trapped list, and is read as an instruction of its own (R140). -/
theorem decode_systemCall (n1 n0 : Nibble) (ws : List Word) :
    decode (word1 0b01#2 0x3F#6 n1 n0 :: ws) = .ok (.sc (n1 ++ n0), ws) := by
  simp [decode, trapInstr, decode01]

/-- A trapped word is read from the word alone (R140). -/
theorem decode_of_trapInstr {w : Word} {i : Instr} (h : trapInstr w = some i) (ws : List Word) :
    decode (w :: ws) = .ok (i, ws) := by
  simp [decode, h]

/-! What the readers of operands take, from the words that the encoder writes. -/

theorem nonZero_of_ne {w : Word} {r : RegCode} (h : r ≠ 0) (d : Decoded) : nonZero w r d = d := if_neg h

@[simp] theorem extractLsb'_append_high (v u : Byte) : (v ++ u).extractLsb' 8 8 = v :=
  BitVec.extractLsb'_append_eq_left

@[simp] theorem extractLsb'_append_low (v u : Byte) : (v ++ u).extractLsb' 0 8 = u :=
  BitVec.extractLsb'_append_eq_right

/-- The two parts a value is split into, put together again. -/
theorem extract_append_extract {k n : Nat} (v : BitVec (n + k)) : v.extractLsb' k n ++ v.extractLsb' 0 k = v :=
  (BitVec.extractLsb'_append_extractLsb'_eq_extractLsb' (Nat.zero_add k).symm).trans BitVec.extractLsb'_eq_self

theorem immByte_cons (v : Byte) (ws : List Word) (k : Byte → List Word → Decoded) :
    immByte ((v ++ v) :: ws) k = k v ws := by
  simp [immByte, takeWord]

theorem immLong_cons (v : Long) (ws : List Word) (k : Long → List Word → Decoded) :
    immLong (v.extractLsb' 16 16 :: v.extractLsb' 0 16 :: ws) k = k v ws := by
  rw [immLong, takeWord, takeWord, extract_append_extract]

/-- The address word of a direct or indexed operand (R103, R133, R134). -/
theorem daX_cons {m : Mem} (hm : m.wellFormed = true) (hmode : m.mode = 0b01#2) (ws : List Word)
    (k : Mem → List Word → Decoded) : daX m.field (m.words ++ ws) k = k m ws := by
  cases m with
  | ir r => simp [Mem.mode] at hmode
  | da a => rfl
  | x a r => simp_all [Mem.wellFormed, daX, takeWord, Mem.field, Mem.words]

theorem blockPair_single (r d : RegCode) (ws : List Word) (f g : RegCode → RegCode → Instr) :
    blockPair (word2 r d 0x8#4 :: ws) f g = .ok (f d r, ws) := by
  simp [blockPair, takeWord]

theorem blockPair_repeating (r d : RegCode) (ws : List Word) (f g : RegCode → RegCode → Instr) :
    blockPair (word2 r d 0x0#4 :: ws) f g = .ok (g d r, ws) := by
  simp [blockPair, takeWord]

/-! The shapes of operands, each read back from the words of its encoder. The hypotheses are the lines of the decoder for
the first word, which `decode_mode00`, `decode_mode01` and `decode_mode10` give. -/

/-- A second opcode word that holds one register. -/
theorem decode_register2 {w : Word} {f : RegCode → Instr}
    (h : ∀ ws, decode (w :: ws) = takeWord ws fun v ws => .ok (f (n2Of v), ws)) (r : RegCode) (rest : List Word) :
    decode (w :: word2 r 0x0#4 0x0#4 :: rest) = .ok (f r, rest) := by
  rw [h, takeWord, n2Of_word2]

/-- The dynamic bit instructions: the operand register is in the second word (R266). -/
theorem decode_dynamicBit {w : Word} {s : RegCode} {f : RegCode → RegCode → Instr}
    (h : ∀ ws, decode (w :: ws) = takeWord ws fun v ws => .ok (f (n2Of v) s, ws)) (d : RegCode) (rest : List Word) :
    decode (w :: word2 d 0x0#4 0x0#4 :: rest) = .ok (f d s, rest) := decode_register2 (f := (f · s)) h d rest

section Block
variable {w : Word} {p r d : RegCode} {rest : List Word}

/-- A second opcode word of two registers and a condition. -/
theorem decode_compare {cc : Cond} {f : RegCode → RegCode → RegCode → Cond → Instr}
    (h : ∀ ws, decode (w :: ws) =
      nonZero w p (takeWord ws fun v ws => .ok (f (n1Of v) p (n2Of v) (Cond.ofCode (n0Of v)), ws)))
    (hp : (p != 0) = true) : decode (w :: word2 r d cc.code :: rest) = .ok (f d p r cc, rest) := by
  rw [h, nonZero_of_ne (bne_iff_ne.mp hp), takeWord, n2Of_word2, n1Of_word2, n0Of_word2, Cond.ofCode_code]

/-- A second opcode word of two registers, whose last nibble is ignored (R118). -/
theorem decode_translate {x : Nibble} {f : RegCode → RegCode → RegCode → Instr}
    (h : ∀ ws, decode (w :: ws) = nonZero w p (takeWord ws fun v ws => .ok (f p (n1Of v) (n2Of v), ws)))
    (hp : (p != 0) = true) : decode (w :: word2 r d x :: rest) = .ok (f p d r, rest) := by
  rw [h, nonZero_of_ne (bne_iff_ne.mp hp), takeWord, n2Of_word2, n1Of_word2]

/-- The single form of block load and block I/O. -/
theorem decode_single {f g : RegCode → RegCode → RegCode → Instr}
    (h : ∀ ws, decode (w :: ws) = nonZero w p (blockPair ws (f · p ·) (g · p ·))) (hp : (p != 0) = true) :
    decode (w :: word2 r d 0x8#4 :: rest) = .ok (f d p r, rest) := by
  rw [h, nonZero_of_ne (bne_iff_ne.mp hp), blockPair_single]

/-- The repeating form of block load and block I/O. -/
theorem decode_repeating {f g : RegCode → RegCode → RegCode → Instr}
    (h : ∀ ws, decode (w :: ws) = nonZero w p (blockPair ws (f · p ·) (g · p ·))) (hp : (p != 0) = true) :
    decode (w :: word2 r d 0x0#4 :: rest) = .ok (g d p r, rest) := by
  rw [h, nonZero_of_ne (bne_iff_ne.mp hp), blockPair_repeating]

end Block

section Shift
variable {w : Word} {rest : List Word}

/-- A static shift whose count is not negative (R435). -/
theorem decode_shiftWord_left {c : Word} {f g : Word → Instr}
    (h : ∀ ws, decode (w :: ws) = takeWord ws fun v ws => .ok (shiftWord v f g, ws)) (hc : (!c.msb) = true) :
    decode (w :: c :: rest) = .ok (f c, rest) := by
  rw [h, takeWord, shiftWord, if_neg (by simpa using hc)]

/-- A static shift whose count is negative. -/
theorem decode_shiftWord_right {c : Word} {f g : Word → Instr}
    (h : ∀ ws, decode (w :: ws) = takeWord ws fun v ws => .ok (shiftWord v f g, ws)) (hc : c.msb = true) :
    decode (w :: c :: rest) = .ok (g c, rest) := by
  rw [h, takeWord, shiftWord, if_pos hc]

/-- The count of a byte shift is the low byte of its word (R444). -/
theorem truncate_countWord (c : Byte) : (0x00#8 ++ c : Word).truncate 8 = c := BitVec.setWidth_append_eq_right

theorem decode_shiftByte_left {c : Byte} {f g : Byte → Instr}
    (h : ∀ ws, decode (w :: ws) = takeWord ws fun v ws => .ok (shiftByte (v.truncate 8) f g, ws))
    (hc : (!c.msb) = true) : decode (w :: (0x00#8 ++ c) :: rest) = .ok (f c, rest) := by
  rw [h, takeWord, truncate_countWord, shiftByte, if_neg (by simpa using hc)]

theorem decode_shiftByte_right {c : Byte} {f g : Byte → Instr}
    (h : ∀ ws, decode (w :: ws) = takeWord ws fun v ws => .ok (shiftByte (v.truncate 8) f g, ws)) (hc : c.msb = true) :
    decode (w :: (0x00#8 ++ c) :: rest) = .ok (g c, rest) := by
  rw [h, takeWord, truncate_countWord, shiftByte, if_pos hc]

end Shift

/-- A condition field is read as the condition it was written for. -/
theorem decode_condition {f : Cond → Instr} {cc : Cond} {ws rest : List Word}
    (h : decode ws = .ok (f (Cond.ofCode cc.code), rest)) : decode ws = .ok (f cc, rest) := by
  rwa [Cond.ofCode_code] at h

/-! The forms of an opcode with bits 3:0 `n0`, as the decoder answers them. Each `of_lines` takes the opcode's own lines of
`decode00`, `decode01` and `decode10` as hypotheses; where it is used the opcode is a literal, so that the defaults prove
them by evaluating the decoder at that opcode. -/

/-- An opcode with a memory operand (R103): what follows the operand is read by `k`. -/
structure MemoryForms (op : BitVec 6) (n0 : Nibble) (k : Mem → List Word → Decoded) : Prop where
  ir : ∀ r ws, r ≠ 0 → decode (word1 0b00#2 op r n0 :: ws) = k (.ir r) ws
  daX : ∀ r ws, decode (word1 0b01#2 op r n0 :: ws) = daX r ws k

/-- The forms, from the lines of the decoder's two functions. -/
theorem MemoryForms.of_lines {op : BitVec 6} {n0 : Nibble} {k : Mem → List Word → Decoded}
    (h0 : trapKind (word1 0b00#2 op 0x0#4 n0) = none := by exact trapKind_of_opcode)
    (h1 : trapKind (word1 0b01#2 op 0x0#4 n0) = none := by exact trapKind_of_opcode)
    (line0 : ∀ w r ws, r ≠ 0 → decode00 w op r n0 ws = k (.ir r) ws := by intro _ _ _ hr; exact if_neg hr)
    (line1 : ∀ w r ws, decode01 w op r n0 ws = Sys2Proof.daX r ws k := by intros; rfl) : MemoryForms op n0 k where
  ir r ws hr := (decode_mode00 h0 ws).trans (line0 _ r ws hr)
  daX r ws := (decode_mode01 h1 ws).trans (line1 _ r ws)

theorem decode_encodeMem {op : BitVec 6} {n0 : Nibble} {k : Mem → List Word → Decoded} {m : Mem}
    (h : MemoryForms op n0 k) (hm : m.wellFormed = true) {ws : List Word} :
    decode (encodeMem op m n0 ++ ws) = k m ws := by
  cases m with
  | ir r => exact h.ir r ws (bne_iff_ne.mp hm)
  | da a => exact (h.daX _ _).trans (daX_cons hm rfl ws k)
  | x a r => exact (h.daX _ _).trans (daX_cons hm rfl ws k)

/-- A memory operand alone. -/
theorem decode_memory {op : BitVec 6} {n0 : Nibble} {f : Mem → Instr} {m : Mem}
    (h : MemoryForms op n0 fun m ws => .ok (f m, ws)) (hm : m.wellFormed = true) {rest : List Word} :
    decode (encodeMem op m n0 ++ rest) = .ok (f m, rest) := decode_encodeMem h hm

/-- A memory operand and a word immediate. -/
theorem decode_memoryImmWord {op : BitVec 6} {n0 : Nibble} {f : Mem → Word → Instr} {m : Mem} {v : Word}
    (h : MemoryForms op n0 fun m ws => immWord ws fun v ws => .ok (f m v, ws)) (hm : m.wellFormed = true)
    {rest : List Word} : decode (encodeMem op m n0 ++ [v] ++ rest) = .ok (f m v, rest) := by
  rw [List.append_assoc, decode_encodeMem h hm]
  rfl

/-- A memory operand and a byte immediate. -/
theorem decode_memoryImmByte {op : BitVec 6} {n0 : Nibble} {f : Mem → Byte → Instr} {m : Mem} {v : Byte}
    (h : MemoryForms op n0 fun m ws => immByte ws fun v ws => .ok (f m v, ws)) (hm : m.wellFormed = true)
    {rest : List Word} : decode (encodeMem op m n0 ++ [v ++ v] ++ rest) = .ok (f m v, rest) := by
  rw [List.append_assoc, decode_encodeMem h hm]
  exact immByte_cons v rest _

/-- The decoder's lines for an opcode with a register or memory operand (R139). -/
structure OperandForms (op : BitVec 6) (n0 : Nibble) (f : Dst → Instr) : Prop
    extends MemoryForms op n0 fun m ws => .ok (f (.mem m), ws) where
  reg : ∀ r ws, decode (word1 0b10#2 op r n0 :: ws) = .ok (f (.reg r), ws)

/-- The forms, from the lines of the decoder's three functions. -/
theorem OperandForms.of_lines {op : BitVec 6} {n0 : Nibble} {f : Dst → Instr}
    (h : ∀ m, trapKind (word1 m op 0x0#4 n0) = none := by exact trapKind_of_modes)
    (line0 : ∀ w r ws, r ≠ 0 → decode00 w op r n0 ws = .ok (f (.mem (.ir r)), ws) := by intro _ _ _ hr; exact if_neg hr)
    (line1 : ∀ w r ws, decode01 w op r n0 ws = daX r ws fun m ws => .ok (f (.mem m), ws) := by intros; rfl)
    (line2 : ∀ w r ws, decode10 w op r n0 ws = .ok (f (.reg r), ws) := by intros; rfl) : OperandForms op n0 f where
  toMemoryForms := .of_lines (h _) (h _) line0 line1
  reg r ws := (decode_mode10 (h _) ws).trans (line2 _ r ws)

theorem decode_encodeDst {op : BitVec 6} {n0 : Nibble} {f : Dst → Instr} {dst : Dst} (h : OperandForms op n0 f)
    (hd : dst.wellFormed = true) {rest : List Word} : decode (encodeDst op dst n0 ++ rest) = .ok (f dst, rest) := by
  cases dst with
  | reg d => exact h.reg d rest
  | mem m => exact decode_encodeMem h.toMemoryForms hd

/-- The same, for an instruction that keeps the field in bits 3:0. -/
theorem decode_encodeDst_field {op : BitVec 6} {n0 : Nibble} {f : Dst → Nibble → Instr} {dst : Dst}
    (h : OperandForms op n0 (f · n0)) (hd : dst.wellFormed = true) {rest : List Word} :
    decode (encodeDst op dst n0 ++ rest) = .ok (f dst n0, rest) := decode_encodeDst h hd

/-- The bit number of a byte: bit 3 of its field is ignored (R118). -/
theorem truncate_byteBit (b : BitVec 3) : (0#1 ++ b : Nibble).truncate 3 = b := BitVec.setWidth_append_eq_right

theorem decode_encodeDst_byteBit {op : BitVec 6} {f : Dst → BitVec 3 → Instr} {dst : Dst} {b : BitVec 3}
    (h : OperandForms op (0#1 ++ b) fun dst => f dst ((0#1 ++ b : Nibble).truncate 3)) (hd : dst.wellFormed = true)
    {rest : List Word} : decode (encodeDst op dst (0#1 ++ b) ++ rest) = .ok (f dst b, rest) := by
  rw [decode_encodeDst h hd, truncate_byteBit]

/-- The decoder's lines for an opcode with a source in five modes (R138): `imm` reads the immediate. -/
structure SourceForms {n : Nat} (op : BitVec 6) (d : Nibble)
    (imm : List Word → (BitVec n → List Word → Decoded) → Decoded) (f : Src n → Instr) : Prop
    extends MemoryForms op d fun m ws => .ok (f (.mem m), ws) where
  reg : ∀ s ws, decode (word1 0b10#2 op s d :: ws) = .ok (f (.reg s), ws)
  imm : ∀ ws, decode (word1 0b00#2 op 0x0#4 d :: ws) = imm ws fun v ws => .ok (f (.imm v), ws)

/-- The forms, from the lines of the decoder's three functions. -/
theorem SourceForms.of_lines {n : Nat} {op : BitVec 6} {d : Nibble}
    {imm : List Word → (BitVec n → List Word → Decoded) → Decoded} {f : Src n → Instr}
    (h : ∀ m, opcodeUntrapped m op = true := by decide)
    (line0 : ∀ w r ws, decode00 w op r d ws = if r = 0 then imm ws fun v ws => .ok (f (.imm v), ws)
      else .ok (f (.mem (.ir r)), ws) := by intros; rfl)
    (line1 : ∀ w r ws, decode01 w op r d ws = daX r ws fun m ws => .ok (f (.mem m), ws) := by intros; rfl)
    (line2 : ∀ w r ws, decode10 w op r d ws = .ok (f (.reg r), ws) := by intros; rfl) : SourceForms op d imm f where
  toMemoryForms := .of_lines (trapKind_of_opcode (h _)) (trapKind_of_opcode (h _))
    (fun w r ws hr => (line0 w r ws).trans (if_neg hr)) line1
  reg r ws := (decode_mode10 (trapKind_of_opcode (h _)) ws).trans (line2 _ r ws)
  imm ws := (decode_mode00 (trapKind_of_opcode (h _)) ws).trans ((line0 _ _ ws).trans (if_pos rfl))

section Source
variable {op : BitVec 6} {d : Nibble}

theorem decode_encodeSrc8 {f : Src 8 → Instr} {src : Src 8} (h : SourceForms op d immByte f)
    (hs : src.wellFormed = true) {rest : List Word} : decode (encodeSrc8 op src d ++ rest) = .ok (f src, rest) := by
  cases src with
  | reg s => exact h.reg s rest
  | imm v => exact (h.imm _).trans (immByte_cons v rest _)
  | mem m => exact decode_encodeMem h.toMemoryForms hs

theorem decode_encodeSrc16 {f : Src 16 → Instr} {src : Src 16} (h : SourceForms op d immWord f)
    (hs : src.wellFormed = true) {rest : List Word} : decode (encodeSrc16 op src d ++ rest) = .ok (f src, rest) := by
  cases src with
  | reg s => exact h.reg s rest
  | imm v => exact h.imm _
  | mem m => exact decode_encodeMem h.toMemoryForms hs

theorem decode_encodeSrc32 {f : Src 32 → Instr} {src : Src 32} (h : SourceForms op d immLong f)
    (hs : src.wellFormed = true) {rest : List Word} : decode (encodeSrc32 op src d ++ rest) = .ok (f src, rest) := by
  cases src with
  | reg s => exact h.reg s rest
  | imm v => exact (h.imm _).trans (immLong_cons v rest _)
  | mem m => exact decode_encodeMem h.toMemoryForms hs

end Source

/-! The loads, the stores, the stack, the ports: shapes of their own. -/

/-- The decoder's lines for a base register with a displacement, where register field 0000 is the relative form, or with an
index register in the second word (R135 to R137). -/
structure BaseForms (bop : BitVec 6) (d : RegCode) (relative : Word → Instr) (ba : RegCode → Word → Instr)
    (bx : RegCode → RegCode → Instr) : Prop where
  base : ∀ r ws, decode (word1 0b00#2 bop r d :: ws) =
    takeWord ws fun v ws => .ok (if r = 0 then relative v else ba r v, ws)
  index : ∀ r ws, decode (word1 0b01#2 bop r d :: ws) =
    nonZero (word1 0b01#2 bop r d) r (takeWord ws fun v ws => .ok (bx r (n2Of v), ws))

section Base
variable {bop : BitVec 6} {d : RegCode} {relative : Word → Instr} {ba : RegCode → Word → Instr}
  {bx : RegCode → RegCode → Instr}

/-- The forms, from the lines of the decoder's two functions. -/
theorem BaseForms.of_lines (h0 : opcodeUntrapped 0b00#2 bop = true := by rfl)
    (h1 : opcodeUntrapped 0b01#2 bop = true := by rfl)
    (line0 : ∀ w r ws, decode00 w bop r d ws =
      takeWord ws fun v ws => .ok (if r = 0 then relative v else ba r v, ws) := by intros; rfl)
    (line1 : ∀ w r ws, decode01 w bop r d ws =
      nonZero w r (takeWord ws fun v ws => .ok (bx r (n2Of v), ws)) := by intros; rfl) :
    BaseForms bop d relative ba bx where
  base r ws := (decode_mode00 (trapKind_of_opcode h0) ws).trans (line0 _ r ws)
  index r ws := (decode_mode01 (trapKind_of_opcode h1) ws).trans (line1 _ r ws)

variable (h : BaseForms bop d relative ba bx) {r x : RegCode} {v : Word} {rest : List Word} (hr : (r != 0) = true)
include h hr

theorem BaseForms.decode_base : decode (word1 0b00#2 bop r d :: v :: rest) = .ok (ba r v, rest) := by
  rw [h.base, takeWord, if_neg (bne_iff_ne.mp hr)]

theorem BaseForms.decode_index :
    decode (word1 0b01#2 bop r d :: word2 x 0x0#4 0x0#4 :: rest) = .ok (bx r x, rest) := by
  rw [h.index, nonZero_of_ne (bne_iff_ne.mp hr), takeWord, n2Of_word2]

end Base

/-- The stores of LD, LDB and LDL (43_load_store.md R363 to R365). -/
theorem decode_encodeLdDst {op bop : BitVec 6} {s : RegCode} {f : LdDst → RegCode → Instr} {relative : Word → Instr}
    {dst : LdDst} (hmem : MemoryForms op s fun m ws => .ok (f (.mem m) s, ws))
    (hbase : BaseForms bop s relative (fun r v => f (.ba r v) s) (fun r x => f (.bx r x) s))
    (hd : dst.wellFormed = true) {rest : List Word} :
    decode (encodeLdDst op bop dst s ++ rest) = .ok (f dst s, rest) := by
  cases dst with
  | mem m => exact decode_encodeMem hmem hd
  | ba r v => exact hbase.decode_base hd
  | bx r x => exact hbase.decode_index hd

/-- A source in five modes, as a source of LD, LDB or LDL. -/
def Src.toLdSrc {n : Nat} : Src n → LdSrc n
  | .reg s => .reg s
  | .imm v => .imm v
  | .mem m => .mem m

/-! The loads of LD, LDB and LDL (R360 to R362, R366 to R368): the five modes of a source, and the base forms. -/

section Load
variable {n : Nat} {op bop : BitVec 6} {d : RegCode} {relative : Word → Instr} {rest : List Word}

theorem decode_encodeLd8 {f : LdSrc 8 → Instr} {src : LdSrc 8}
    (hsrc : SourceForms op d immByte fun src => f src.toLdSrc)
    (hbase : BaseForms bop d relative (fun r v => f (.ba r v)) (fun r x => f (.bx r x)))
    (hs : src.wellFormed = true) : decode (encodeLd8 op bop src d ++ rest) = .ok (f src, rest) := by
  cases src with
  | reg s => exact decode_encodeSrc8 (src := .reg s) hsrc rfl
  | imm v => exact decode_encodeSrc8 (src := .imm v) hsrc rfl
  | mem m => exact decode_encodeSrc8 (src := .mem m) hsrc hs
  | ba r v => exact hbase.decode_base hs
  | bx r x => exact hbase.decode_index hs

theorem decode_encodeLd16 {f : LdSrc 16 → Instr} {src : LdSrc 16}
    (hsrc : SourceForms op d immWord fun src => f src.toLdSrc)
    (hbase : BaseForms bop d relative (fun r v => f (.ba r v)) (fun r x => f (.bx r x)))
    (hs : src.wellFormed = true) : decode (encodeLd16 op bop src d ++ rest) = .ok (f src, rest) := by
  cases src with
  | reg s => exact decode_encodeSrc16 (src := .reg s) hsrc rfl
  | imm v => exact decode_encodeSrc16 (src := .imm v) hsrc rfl
  | mem m => exact decode_encodeSrc16 (src := .mem m) hsrc hs
  | ba r v => exact hbase.decode_base hs
  | bx r x => exact hbase.decode_index hs

theorem decode_encodeLd32 {f : LdSrc 32 → Instr} {src : LdSrc 32}
    (hsrc : SourceForms op d immLong fun src => f src.toLdSrc)
    (hbase : BaseForms bop d relative (fun r v => f (.ba r v)) (fun r x => f (.bx r x)))
    (hs : src.wellFormed = true) : decode (encodeLd32 op bop src d ++ rest) = .ok (f src, rest) := by
  cases src with
  | reg s => exact decode_encodeSrc32 (src := .reg s) hsrc rfl
  | imm v => exact decode_encodeSrc32 (src := .imm v) hsrc rfl
  | mem m => exact decode_encodeSrc32 (src := .mem m) hsrc hs
  | ba r v => exact hbase.decode_base hs
  | bx r x => exact hbase.decode_index hs

end Load

/-- LDA has a direct or indexed address, in mode 01, or a base form (R380). -/
theorem decode_lda {d : RegCode} {src : LdaSrc} (hs : src.wellFormed = true) (rest : List Word) :
    decode (encode (.lda d src) ++ rest) = .ok (.lda d src, rest) := by
  have hbase : BaseForms 0x34#6 d (.ldar d) (fun r v => .lda d (.ba r v)) (fun r x => .lda d (.bx r x)) := .of_lines
  have hword (a : Word) (r : RegCode) : decode (word1 0b01#2 0x36#6 r d :: a :: rest) =
    .ok (.lda d (if r = 0 then .da a else .x a r), rest) := decode_mode01 trapKind_of_opcode _
  cases src with
  | da a => exact hword a 0x0#4
  | x a r => exact (hword a r).trans (by rw [if_neg (bne_iff_ne.mp hs)])
  | ba r v => exact hbase.decode_base hs
  | bx r x => exact hbase.decode_index hs

/-- LDM: the second opcode word stands before the address word (R393). -/
theorem decode_encodeLdm {n0 : Nibble} {r n : Nibble} {f : RegCode → Mem → Nibble → Instr} {m : Mem}
    (h0 : ∀ p ws, decode (word1 0b00#2 0x1C#6 p n0 :: ws) =
      ir (word1 0b00#2 0x1C#6 p n0) p fun m => takeWord ws fun v ws => .ok (f (n2Of v) m (n0Of v), ws))
    (h1 : ∀ p ws, decode (word1 0b01#2 0x1C#6 p n0 :: ws) =
      takeWord ws fun v ws => daX p ws fun m ws => .ok (f (n2Of v) m (n0Of v), ws))
    (hm : m.wellFormed = true) {rest : List Word} :
    decode (encodeLdm m n0 (word2 r 0x0#4 n) ++ rest) = .ok (f r m n, rest) := by
  have indexed (hmode : m.mode = 0b01#2) :
      decode (encodeLdm m n0 (word2 r 0x0#4 n) ++ rest) = .ok (f r m n, rest) := by
    rw [encodeLdm, hmode, List.cons_append, List.cons_append, h1, takeWord, daX_cons hm hmode, n2Of_word2, n0Of_word2]
  cases m with
  | ir p =>
    refine (h0 p (word2 r 0x0#4 n :: rest)).trans ?_
    rw [ir, nonZero_of_ne (bne_iff_ne.mp hm), takeWord, n2Of_word2, n0Of_word2]
  | da a => exact indexed rfl
  | x a p => exact indexed rfl

/-- The decoder's lines for PUSH and POP (R400): the stack register stands where other forms have the operand. -/
structure StackForms (op : BitVec 6) (sp : RegCode) (f : Dst → Instr) : Prop where
  reg : ∀ d ws, decode (word1 0b10#2 op sp d :: ws) = nonZero (word1 0b10#2 op sp d) sp (.ok (f (.reg d), ws))
  ir : ∀ r ws, decode (word1 0b00#2 op sp r :: ws) =
    nonZero (word1 0b00#2 op sp r) sp (ir (word1 0b00#2 op sp r) r fun m => .ok (f (.mem m), ws))
  daX : ∀ r ws, decode (word1 0b01#2 op sp r :: ws) =
    nonZero (word1 0b01#2 op sp r) sp (daX r ws fun m ws => .ok (f (.mem m), ws))

/-- The forms, from the lines of the decoder's three functions. -/
theorem StackForms.of_lines {op : BitVec 6} {sp : RegCode} {f : Dst → Instr}
    (h : ∀ m, opcodeUntrapped m op = true := by decide)
    (line0 : ∀ w r ws, decode00 w op sp r ws =
      nonZero w sp (Sys2Proof.ir w r fun m => .ok (f (.mem m), ws)) := by intros; rfl)
    (line1 : ∀ w r ws, decode01 w op sp r ws =
      nonZero w sp (Sys2Proof.daX r ws fun m ws => .ok (f (.mem m), ws)) := by intros; rfl)
    (line2 : ∀ w r ws, decode10 w op sp r ws = nonZero w sp (.ok (f (.reg r), ws)) := by intros; rfl) :
    StackForms op sp f where
  reg r ws := (decode_mode10 (trapKind_of_opcode (h _)) ws).trans (line2 _ r ws)
  ir r ws := (decode_mode00 (trapKind_of_opcode (h _)) ws).trans (line0 _ r ws)
  daX r ws := (decode_mode01 (trapKind_of_opcode (h _)) ws).trans (line1 _ r ws)

theorem decode_encodeStack {op : BitVec 6} {sp : RegCode} {f : Dst → Instr} {o : Dst} (h : StackForms op sp f)
    (hsp : (sp != 0) = true) (ho : o.wellFormed = true) {rest : List Word} :
    decode (encodeStack op sp o ++ rest) = .ok (f o, rest) := by
  have hsp := bne_iff_ne.mp hsp
  have indexed {m : Mem} (hm : m.wellFormed = true) (hmode : m.mode = 0b01#2) :
      decode (encodeStack op sp (.mem m) ++ rest) = .ok (f (.mem m), rest) := by
    rw [encodeStack, hmode, List.cons_append, h.daX, nonZero_of_ne hsp, daX_cons hm hmode]
  match o, ho with
  | .reg d, _ => exact (h.reg d rest).trans (nonZero_of_ne hsp _)
  | .mem (.ir r), hm =>
    exact (h.ir r rest).trans ((nonZero_of_ne hsp _).trans (nonZero_of_ne (bne_iff_ne.mp hm) _))
  | .mem (.da a), hm => exact indexed hm rfl
  | .mem (.x a r), hm => exact indexed hm rfl

/-- The port of an input: a register, or the port word (46_io.md R522). -/
theorem decode_encodeIn {iop dop : BitVec 6} {d : RegCode} {f : Port → Instr} {p : Port}
    (hir : ∀ r ws, decode (word1 0b00#2 iop r d :: ws) = nonZero (word1 0b00#2 iop r d) r (.ok (f (.ir r), ws)))
    (hda : ∀ ws, decode (word1 0b00#2 dop d 0x4#4 :: ws) = takeWord ws fun v ws => .ok (f (.da v), ws))
    (hp : p.wellFormed = true) {rest : List Word} : decode (encodeIn iop dop p d ++ rest) = .ok (f p, rest) := by
  cases p with
  | ir r => exact (hir r rest).trans (nonZero_of_ne (bne_iff_ne.mp hp) _)
  | da v => exact hda (v :: rest)

/-- The port of an output (R526). -/
theorem decode_encodeOut {iop dop : BitVec 6} {s : RegCode} {f : Port → RegCode → Instr} {p : Port}
    (hir : ∀ r ws, decode (word1 0b00#2 iop r s :: ws) = nonZero (word1 0b00#2 iop r s) r (.ok (f (.ir r) s, ws)))
    (hda : ∀ ws, decode (word1 0b00#2 dop s 0x6#4 :: ws) = takeWord ws fun v ws => .ok (f (.da v) s, ws))
    (hp : p.wellFormed = true) {rest : List Word} : decode (encodeOut iop dop p s ++ rest) = .ok (f p s, rest) := by
  cases p with
  | ir r => exact (hir r rest).trans (nonZero_of_ne (bne_iff_ne.mp hp) _)
  | da v => exact hda (v :: rest)

/-! The compact formats, whose displacement is split over fields (R104). -/

theorem decode_calr (disp : BitVec 12) (rest : List Word) :
    decode (encode (.calr disp) ++ rest) = .ok (.calr disp, rest) := by
  refine (decode_compact _ _ _ _ rest).trans ?_
  have h : disp.extractLsb' 8 4 ++ disp.extractLsb' 4 4 ++ disp.extractLsb' 0 4 = disp := by
    rw [BitVec.extractLsb'_append_extractLsb'_eq_extractLsb' (by rfl), extract_append_extract (k := 4) (n := 8)]
  simp only [decode11, h]

/-- DJNZ and DBJNZ: bit 7 of the word tells which (42_control_transfer.md), bits 6:0 are the displacement. -/
theorem decode_loop (word : Bool) (r : RegCode) (disp : BitVec 7) (rest : List Word) :
    decode (compact 0x3#2 r (BitVec.ofBool word ++ disp.extractLsb' 4 3) (disp.extractLsb' 0 4) :: rest) =
      .ok (if word then .djnz r disp else .dbjnz r disp, rest) := by
  rw [decode_compact]
  have hbit : (BitVec.ofBool word ++ disp.extractLsb' 4 3 : Nibble).getLsbD 3 = word := by
    rw [BitVec.getLsbD_append]; simp
  have hdisp : (BitVec.ofBool word ++ disp.extractLsb' 4 3 : Nibble).extractLsb' 0 3 ++ disp.extractLsb' 0 4 = disp := by
    rw [BitVec.extractLsb'_append_eq_right]; exact extract_append_extract (k := 4) (n := 3) disp
  change Except.ok (if _ then Instr.djnz r _ else Instr.dbjnz r _, rest) = _
  rw [hbit, hdisp]

theorem decode_ldbShort (d : RegCode) (v : Byte) (rest : List Word) :
    decode (encode (.ldbShort d v) ++ rest) = .ok (.ldbShort d v, rest) := by
  refine (decode_compact _ _ _ _ rest).trans ?_
  change Except.ok (Instr.ldbShort d _, rest) = _
  rw [extract_append_extract (k := 4) (n := 4) v]

theorem decode_jr (cc : Cond) (disp : Byte) (rest : List Word) :
    decode (encode (.jr cc disp) ++ rest) = .ok (.jr cc disp, rest) := by
  refine (decode_compact _ _ _ _ rest).trans ?_
  change Except.ok (Instr.jr _ _, rest) = _
  rw [Cond.ofCode_code, extract_append_extract (k := 4) (n := 4) disp]

/-! The control instructions with a field split inside a nibble or a byte. -/

theorem enables_kind (k vn : BitVec 2) : (k ++ vn : Nibble).extractLsb' 2 2 = k := BitVec.extractLsb'_append_eq_left

theorem enables_mask (k vn : BitVec 2) : (k ++ vn : Nibble).truncate 2 = vn := BitVec.setWidth_append_eq_right

/-- DI and EI: bits 3:2 tell which, bits 1:0 are the enables. -/
theorem decode_di (vn : BitVec 2) (rest : List Word) : decode (encode (.di vn) ++ rest) = .ok (.di vn, rest) := by
  refine (decode_mode01 trapKind_of_opcode rest).trans ?_
  simp [decode01, enables_kind, enables_mask]

theorem decode_ei (vn : BitVec 2) (rest : List Word) : decode (encode (.ei vn) ++ rest) = .ok (.ei vn, rest) := by
  refine (decode_mode01 trapKind_of_opcode rest).trans ?_
  simp [decode01, enables_kind, enables_mask]

theorem decode_sc (v : Byte) (rest : List Word) : decode (encode (.sc v) ++ rest) = .ok (.sc v, rest) := by
  refine (decode_systemCall _ _ rest).trans ?_
  rw [extract_append_extract (k := 4) (n := 4) v]


/-! Every instruction, by the shape of its words. -/

/-- A well-formed instruction is read back from its words, whatever follows them (30_encoding.md R100, R144). -/
theorem decode_encode {i : Instr} (hi : i.wellFormed = true) (rest : List Word) :
    decode (encode i ++ rest) = .ok (i, rest) := by
  cases i with
  -- five-mode sources
  | addb d src | cpb d src | subb d src | andb d src | orb d src | xorb d src =>
    exact decode_encodeSrc8 .of_lines hi
  | add d src | cp d src | div d src | mult d src | sub d src | and d src | or d src | xor d src =>
    exact decode_encodeSrc16 .of_lines hi
  | addl d src | cpl d src | divl d src | multl d src | subl d src => exact decode_encodeSrc32 .of_lines hi
  -- register or memory operands
  | dec dst n | decb dst n | inc dst n | incb dst n | bit dst b | res dst b | set dst b =>
    exact decode_encodeDst_field .of_lines hi
  | ex d src | exb d src => exact decode_encodeDst .of_lines hi
  | bitb dst b | resb dst b | setb dst b => exact decode_encodeDst_byteBit .of_lines hi
  | neg dst | negb dst | com dst | comb dst | test dst | testb dst | testl dst | tset dst | tsetb dst | clr dst
  | clrb dst => exact decode_encodeDst (.of_lines (by decide)) hi
  -- memory operands
  | call m => exact decode_memory .of_lines hi
  | jp cc m => exact decode_condition (f := (.jp · m)) (decode_memory .of_lines hi)
  | ldps m => exact decode_memory (.of_lines (by rfl) (by rfl)) hi
  | cpMem m v | ldImm m v => exact decode_memoryImmWord (.of_lines (by rfl) (by rfl)) hi
  | cpbMem m v | ldbImm m v => exact decode_memoryImmByte (.of_lines (by rfl) (by rfl)) hi
  | ldm d m n => exact decode_encodeLdm (fun _ => decode_mode00 (by rfl)) (fun _ => decode_mode01 (by rfl)) hi
  | ldmStore m s n =>
    exact decode_encodeLdm (f := fun s m n => .ldmStore m s n) (fun _ => decode_mode00 (by rfl))
      (fun _ => decode_mode01 (by rfl)) hi
  -- loads and stores
  | ld d src => exact decode_encodeLd16 .of_lines .of_lines hi
  | ldb d src => exact decode_encodeLd8 .of_lines .of_lines hi
  | ldl d src => exact decode_encodeLd32 .of_lines .of_lines hi
  | ldStore dst s | ldbStore dst s | ldlStore dst s => exact decode_encodeLdDst .of_lines .of_lines hi
  | lda d src => exact decode_lda hi rest
  | ldr d v | ldrb d v | ldrl d v | ldar d v | ldrStore v s | ldrbStore v s | ldrlStore v s =>
    exact decode_mode00 trapKind_of_opcode _
  -- the stack
  | pop dst s =>
    obtain ⟨hd, hs⟩ := Bool.and_eq_true_iff.mp hi
    exact decode_encodeStack (f := (.pop · s)) .of_lines hs hd
  | popl dst s =>
    obtain ⟨hd, hs⟩ := Bool.and_eq_true_iff.mp hi
    exact decode_encodeStack (f := (.popl · s)) .of_lines hs hd
  | push d src | pushl d src =>
    obtain ⟨hd, hs⟩ := Bool.and_eq_true_iff.mp hi
    exact decode_encodeStack .of_lines hd hs
  | pushImm d v => exact (decode_mode00 rfl _).trans (nonZero_of_ne (bne_iff_ne.mp hi) _)
  -- one word, whose bits 3:0 are a register or a value
  | adc d s | adcb d s | sbc d s | sbcb d s | dab d | ldk d v | rldb d s | rrdb d s =>
    exact decode_mode10 trapKind_of_opcode _
  | tcc cc d => exact decode_condition (f := (.tcc · d)) (decode_mode10 trapKind_of_opcode _)
  | tccb cc d => exact decode_condition (f := (.tccb · d)) (decode_mode10 trapKind_of_opcode _)
  | ret cc => exact decode_condition (decode_mode10 trapKind_of_opcode _)
  -- one word, whose bits 3:0 are a code
  | exts d | extsb d | extsl d | comflg f | resflg f | setflg f | ldctlbTo s | ldctlbFrom d | nop =>
    exact decode_mode10 rfl _
  | halt | iret | mbit | mres | mset | mreq d => exact decode_mode01 rfl _
  | rl d two | rlb d two | rlc d two | rlcb d two | rr d two | rrb d two | rrc d two | rrcb d two =>
    cases two <;> exact decode_mode10 rfl _
  | ldctlTo c r | ldctlFrom r c => cases c <;> exact decode_mode01 rfl _
  | di vn => exact decode_di vn rest
  | ei vn => exact decode_ei vn rest
  | sc v => exact decode_sc v rest
  -- the compact formats
  | ldbShort d v => exact decode_ldbShort d v rest
  | calr disp => exact decode_calr disp rest
  | jr cc disp => exact decode_jr cc disp rest
  | djnz r disp => exact decode_loop true r disp rest
  | dbjnz r disp => exact decode_loop false r disp rest
  -- a register in the second word
  | bitDyn d s | bitbDyn d s | resDyn d s | resbDyn d s | setDyn d s | setbDyn d s =>
    exact decode_dynamicBit (decode_mode00 trapKind_of_opcode) d rest
  | sda d s | sdab d s | sdal d s | sdl d s | sdlb d s | sdll d s =>
    exact decode_register2 (decode_mode10 (by rfl)) s rest
  -- static shifts
  | sla d c | slal d c | sll d c | slll d c => exact decode_shiftWord_left (decode_mode10 (by rfl)) hi
  | sra d c | sral d c | srl d c | srll d c => exact decode_shiftWord_right (decode_mode10 (by rfl)) hi
  | slab d c | sllb d c => exact decode_shiftByte_left (decode_mode10 (by rfl)) hi
  | srab d c | srlb d c => exact decode_shiftByte_right (decode_mode10 (by rfl)) hi
  -- the block instructions
  | cpd d s r cc | cpdb d s r cc | cpdr d s r cc | cpdrb d s r cc | cpi d s r cc | cpib d s r cc | cpir d s r cc
  | cpirb d s r cc | cpsd d s r cc | cpsdb d s r cc | cpsdr d s r cc | cpsdrb d s r cc | cpsi d s r cc
  | cpsib d s r cc | cpsir d s r cc | cpsirb d s r cc => exact decode_compare (decode_mode10 (by rfl)) hi
  | trdb d s r | trdrb d s r | trib d s r | trirb d s r | trtdb d s r | trtdrb d s r | trtib d s r | trtirb d s r =>
    exact decode_translate (decode_mode10 (by rfl)) hi
  | ldd d s r | lddb d s r | ldi d s r | ldib d s r => exact decode_single (decode_mode10 (by rfl)) hi
  | lddr d s r | lddrb d s r | ldir d s r | ldirb d s r => exact decode_repeating (decode_mode10 (by rfl)) hi
  | ind d s r | indb d s r | ini d s r | inib d s r | outd d s r | outdb d s r | outi d s r | outib d s r | sind d s r
  | sindb d s r | sini d s r | sinib d s r | soutd d s r | soutdb d s r | souti d s r | soutib d s r =>
    exact decode_single (decode_mode00 (by rfl)) hi
  | indr d s r | indrb d s r | inir d s r | inirb d s r | otdr d s r | otdrb d s r | otir d s r | otirb d s r
  | sindr d s r | sindrb d s r | sinir d s r | sinirb d s r | sotdr d s r | sotdrb d s r | sotir d s r
  | sotirb d s r => exact decode_repeating (decode_mode00 (by rfl)) hi
  -- input and output of one item
  | inp d p | inb d p =>
    exact decode_encodeIn (fun _ => decode_mode00 trapKind_of_opcode) (decode_mode00 (by rfl)) hi
  | out p s | outb p s =>
    exact decode_encodeOut (fun _ => decode_mode00 trapKind_of_opcode) (decode_mode00 (by rfl)) hi
  | sin d v | sinb d v | sout v s | soutb v s => exact decode_mode00 rfl _
  -- trapped words
  | ldEpu w | ldbEpu w | epui w | trappedReserved w | trappedEpu w | trappedReservedSc w =>
    exact decode_of_trapInstr (of_decide_eq_true hi) rest

/-- An instruction is one to three words (30_encoding.md R101). -/
theorem encode_instructionLength (i : Instr) : InstructionLength (encode i) := by
  cases i with
  | addb | cpb | subb | andb | orb | xorb => exact encodeSrc8_length _ _ _
  | add | cp | div | mult | sub | and | or | xor => exact encodeSrc16_length _ _ _
  | addl | cpl | divl | multl | subl => exact encodeSrc32_length _ _ _
  | dec | decb | inc | incb | neg | negb | com | comb | bit | bitb | res | resb | set | setb | test | testb | testl
  | tset | tsetb | clr | clrb | ex | exb => exact encodeDst_length _ _ _
  | call | jp | ldps => exact encodeMem_length_nil _ _ _
  | cpMem | cpbMem | ldImm | ldbImm => exact encodeMem_length _ _ _ _ (by simp)
  | ld => exact encodeLd16_length _ _ _ _
  | ldb => exact encodeLd8_length _ _ _ _
  | ldl => exact encodeLd32_length _ _ _ _
  | ldStore | ldbStore | ldlStore => exact encodeLdDst_length _ _ _ _
  | lda => exact encodeLda_length _ _
  | ldm | ldmStore => exact encodeLdm_length _ _ _
  | pop | popl | push | pushl => exact encodeStack_length _ _ _
  | inp | inb => exact encodeIn_length _ _ _ _
  | out | outb => exact encodeOut_length _ _ _ _
  | adc | adcb | sbc | sbcb | dab | exts | extsb | extsl | comflg | resflg | setflg | tcc | tccb | calr | djnz | dbjnz
  | jr | ret | ldbShort | ldk | rl | rlb | rlc | rlcb | rr | rrb | rrc | rrcb | rldb | rrdb | di | ei | halt | iret
  | ldctlTo | ldctlFrom | ldctlbTo | ldctlbFrom | mbit | mreq | mres | mset | nop | sc | ldEpu | ldbEpu | epui
  | trappedReserved | trappedEpu | trappedReservedSc => exact one_length _
  | _ => exact two_length _ _

end Sys2Proof

namespace Sys2Proof.Machine

open Sys2Proof

/-- The words offered at the pc, one by one. -/
theorem State.instructionWords_getElem? (s : State) {k : Nat} (hk : k < 3) :
    s.instructionWords[k]? = some (s.wordAt .program (s.pc + BitVec.ofNat 16 (2 * k))) := by
  interval_cases k <;> simp [State.instructionWords]

/-- Words of an instruction that stand in memory at the pc begin the words offered there. -/
theorem State.instructionWords_eq_append {s : State} {ws : List Word} (hlen : ws.length ≤ 3)
    (h : ∀ (k : Nat) (w : Word), ws[k]? = some w → s.wordAt .program (s.pc + BitVec.ofNat 16 (2 * k)) = w) :
    s.instructionWords = ws ++ s.instructionWords.drop ws.length := by
  have hbegin : ws = s.instructionWords.take ws.length := by
    apply List.ext_getElem?
    intro k
    rw [List.getElem?_take]
    split
    · rename_i hk
      rw [s.instructionWords_getElem? (by omega), h k ws[k] (List.getElem?_eq_getElem hk)]
      exact List.getElem?_eq_getElem hk
    · exact List.getElem?_eq_none (by omega)
  conv_lhs => rw [← List.take_append_drop ws.length s.instructionWords, ← hbegin]

end Sys2Proof.Machine

section
open Sys2Proof Sys2Proof.Machine

/-- Settles O7: the words at the pc decode to the instruction (`decode_encode`), and with nothing presented the step runs
it. -/
theorem stepRunsEncodedInstruction : Obligations.StepRunsEncodedInstruction := by
  intro s i hi hin hnmi hhalt hpc hwords
  have hsample := State.sampleInputs_quiet hin
  have hint : s.sampleInputs.2.interrupt s.sampleInputs.1 = none := by
    rw [hsample]; exact State.interrupt_quiet hnmi
  have hlen : (encode i).length ≤ 3 := (encode_instructionLength i).2
  have hdecode : decode s.sampleInputs.2.instructionWords = .ok (i, s.instructionWords.drop (encode i).length) := by
    rw [State.sampleInputs_instructionWords]
    exact (congrArg decode (State.instructionWords_eq_append hlen hwords)).trans (decode_encode hi _)
  rw [step_of_undisturbed (by rw [hsample]; rfl) hint hhalt, runInstruction_of_decode (by simpa using hpc) hdecode,
    State.advance_eq, hsample]
  have hrest : 3 - (s.instructionWords.drop (encode i).length).length = (encode i).length := by
    simp [State.instructionWords]; omega
  rw [hrest]
  rfl
end

/-! What every step keeps (10_state.md R30, R31; 20_memory.md R60). First: the updates of the state that keep the
invariant. -/

namespace Sys2Proof.Machine

open Sys2Proof

/-- The bits that the mask fixes: all but VIE, NVIE and the six flags (10_state.md R30). -/
def fixedBits : Word := 0xE703#16

/-- A word that agrees with a masked one in the fixed bits is masked too. -/
theorem fcwMask_congr {v w : Word} (hv : fcwMask v = v)
    (h : ∀ i < 16, fixedBits.getLsbD i = true → w.getLsbD i = v.getLsbD i) : fcwMask w = w := by
  refine fcwMask_fixed.mpr (Eq.trans ?_ (fcwMask_fixed.mp hv))
  apply BitVec.eq_of_getLsbD_eq
  intro i hi
  rw [BitVec.getLsbD_and, BitVec.getLsbD_and]
  cases hf : fixedBits.getLsbD i with
  | true => rw [h i hi hf]
  | false => rw [show (0xE703#16).getLsbD i = false from hf, Bool.and_false, Bool.and_false]

/-- A mask without fixed bits is 0 at each of them. -/
theorem getLsbD_of_free {m : Word} (hm : m &&& fixedBits = 0) {i : Nat} (hi : fixedBits.getLsbD i = true) :
    m.getLsbD i = false := by
  have hbit := congrArg (fun x : Word => x.getLsbD i) hm
  simpa [hi] using hbit

section
variable {v m : Word} (hv : fcwMask v = v) (hm : m &&& fixedBits = 0)
include hv hm

/-- Bits that are not fixed may be set. -/
theorem fcwMask_or : fcwMask (v ||| m) = v ||| m :=
  fcwMask_congr hv fun _ _ hi => by simp [getLsbD_of_free hm hi]

/-- Bits that are not fixed may be complemented. -/
theorem fcwMask_xor : fcwMask (v ^^^ m) = v ^^^ m :=
  fcwMask_congr hv fun _ _ hi => by simp [getLsbD_of_free hm hi]

/-- Bits that are not fixed may be cleared. -/
theorem fcwMask_andNot : fcwMask (v &&& ~~~m) = v &&& ~~~m :=
  fcwMask_congr hv fun _ hlt hi => by
    rw [BitVec.getLsbD_and, BitVec.getLsbD_not, getLsbD_of_free hm hi]
    simp [hlt]

end

/-- VIE and NVIE are not fixed. -/
theorem enableMask_free (vn : BitVec 2) : enableMask vn &&& fixedBits = 0 := by revert vn; decide

/-- C, Z, S and V are not fixed. -/
theorem flagMask_free (czsv : Nibble) : flagMask czsv &&& fixedBits = 0 := by revert czsv; decide

/-- A new low byte without bits 1:0 leaves the fixed bits (47_system.md R585). -/
theorem fcwMask_lowByte {v : Word} (hv : fcwMask v = v) (b : Byte) :
    fcwMask (v.extractLsb' 8 8 ++ (b &&& 0xFC#8)) = v.extractLsb' 8 8 ++ (b &&& 0xFC#8) := by
  have hzero := fcwMask_fixed.mp hv
  refine fcwMask_congr hv fun i hlt hi => ?_
  have hbit := congrArg (fun x : Word => x.getLsbD i) hzero
  simp only [BitVec.getLsbD_and, BitVec.getLsbD_append, BitVec.getLsbD_extractLsb'] at hbit ⊢
  interval_cases i <;> simp_all [fixedBits]

/-- The invariant is about memory, the FCW and PSAP only. -/
theorem State.Inv.congr {s t : State} (h : s.Inv) (hmem : t.mem = s.mem) (hfcw : t.fcw = s.fcw)
    (hpsap : t.psap = s.psap) : t.Inv :=
  ⟨hmem ▸ h.memory, hfcw ▸ h.status, hpsap ▸ h.area⟩

namespace State.Inv

section
variable {s : State} (h : s.Inv)
include h

/-! Registers, pc, pins and events are outside the invariant. -/

theorem setReg (r : RegCode) (v : Word) : (s.setReg r v).Inv := h.congr (by simp) (by simp) (by simp)
theorem setByteReg (c : RegCode) (v : Byte) : (s.setByteReg c v).Inv := h.setReg _ _
theorem setPairValue (c : RegCode) (v : Long) : (s.setPairValue c v).Inv :=
  h.congr (by simp) (by simp) (by simp)
theorem emit (e : Event) : (s.emit e).Inv := h.congr rfl rfl rfl
theorem ioWriteWord (space : IoSpace) (port v : Word) : (s.ioWriteWord space port v).Inv := h.emit _
theorem ioWriteByte (space : IoSpace) (port : Word) (v : Byte) : (s.ioWriteByte space port v).Inv := h.emit _
theorem setMob (b : Bool) : (s.setMob b).Inv := h.congr (by simp) (by simp) (by simp)
theorem jump (a : Word) : (s.jump a).Inv := h.congr rfl rfl rfl
theorem rewind : s.rewind.Inv := h.congr rfl rfl rfl
theorem advance (rest : List Word) : (s.advance rest).Inv := h.congr rfl rfl rfl
theorem sampleInputs : s.sampleInputs.2.Inv := h.congr (by simp) (by simp) (by simp)

/-! The FCW. -/

theorem withFcw {w : Word} (hw : fcwMask w = w) : ({ s with fcw := w } : State).Inv := ⟨h.memory, hw, h.area⟩
theorem setFlags (f : FlagWrite) : (s.setFlags f).Inv := h.withFcw (fcwMask_apply f h.status)
theorem loadStatus (f p : Word) : (s.loadStatus f p).Inv := ⟨h.memory, fcwMask_fcwMask f, h.area⟩

/-- System mode holds already. -/
theorem orSystem : s.fcw ||| 0x4000#16 = s.fcw := by
  have hfix := fcwMask_fixed.mp h.status
  apply BitVec.eq_of_getLsbD_eq
  intro i hi
  have hbit := congrArg (fun x : Word => x.getLsbD i) hfix
  simp only [BitVec.getLsbD_and, BitVec.getLsbD_or] at hbit ⊢
  interval_cases i <;> simp_all

/-! Memory. -/

theorem writeByte (sp : Space) (a : Word) (v : Byte) : (s.writeByte sp a v).Inv :=
  ⟨State.wf_writeByte sp a v h.memory, h.status, h.area⟩
theorem putWord (sp : Space) (a v : Word) : (s.putWord sp a v).Inv :=
  ⟨State.wf_putWord sp a v h.memory, h.status, h.area⟩

/-- A control register takes the FCW under its mask, and PSAP without its low byte (47_system.md R580 to R584). -/
theorem setControl (c : CtlReg) (v : Word) : (s.setControl c v).Inv := by
  cases c with
  | fcw => exact h.withFcw (fcwMask_fcwMask v)
  | refresh | nsp => exact h.congr rfl rfl rfl
  | psap => exact ⟨h.memory, h.status, by simp [State.setControl, BitVec.and_assoc]⟩

theorem deviceReset : s.deviceReset.Inv := by
  rw [State.deviceReset_eq]
  exact ⟨h.memory, fcwMask_fcwMask _, BitVec.zero_and⟩

/-- The end of a block iteration writes the count register and flags, and may put the pc back. -/
theorem endIteration (repeats : Bool) (r : RegCode) (flags : Bool → FlagWrite) (done : Bool → Bool) :
    (endIteration repeats r flags done s).Inv := by
  have hend : ((s.setReg r (s.reg r - 1)).setFlags (flags (s.reg r - 1 == 0))).Inv := (h.setReg r _).setFlags _
  unfold Machine.endIteration
  dsimp only
  split
  · exact hend.rewind
  · exact hend

theorem requestMicro (d : RegCode) : (requestMicro s d).Inv := by
  unfold Machine.requestMicro
  dsimp only
  split
  · exact (h.setFlags _).setMob _
  · split
    · exact ((h.setMob _).setReg _ _).setFlags _
    · exact (((h.setMob _).setReg _ _).setFlags _).setMob _

end

end State.Inv

/-! Computations that the spec may refuse: when they answer a state, the invariant holds of it. -/

/-- The state answered, if any, meets the invariant. -/
def Attempt.KeepsInv (a : Attempt State) : Prop := ∀ t, a = .ok t → t.Inv

/-- The next state, if there is one, meets the invariant. -/
def Result.KeepsInv (r : Result) : Prop := ∀ t, r = .next t → t.Inv

namespace Attempt.KeepsInv

theorem ok {t : State} (h : t.Inv) : Attempt.KeepsInv (.ok t) := by
  rintro _ ⟨⟩
  exact h

/-- A computation in sequence: what follows keeps the invariant for every value the first part can answer. -/
theorem bind {α : Type} {m : Attempt α} {k : α → Attempt State}
    (hk : ∀ v, m = .ok v → Attempt.KeepsInv (k v)) : Attempt.KeepsInv (m >>= k) := by
  intro t ht
  cases m with
  | ok v => exact hk v rfl t ht
  | error r => cases ht

/-- After a read or a check, whatever it answers. -/
theorem read {α : Type} {m : Attempt α} {k : α → Attempt State} (hk : ∀ v, Attempt.KeepsInv (k v)) :
    Attempt.KeepsInv (m >>= k) := bind fun v _ => hk v

/-- After a write that keeps the invariant. -/
theorem write {m : Attempt State} {k : State → Attempt State} (hm : Attempt.KeepsInv m)
    (hk : ∀ t, t.Inv → Attempt.KeepsInv (k t)) : Attempt.KeepsInv (m >>= k) := bind fun t ht => hk t (hm t ht)

end Attempt.KeepsInv

theorem Result.KeepsInv.finish {a : Attempt State} (h : Attempt.KeepsInv a) : Result.KeepsInv (finish a) := by
  intro t ht
  cases a with
  | ok u => cases ht; exact h t rfl
  | error r => cases ht

theorem Result.KeepsInv.next {t : State} (h : t.Inv) : Result.KeepsInv (.next t) := by
  rintro _ ⟨⟩
  exact h

theorem Result.KeepsInv.refused (r : Refusal) : Result.KeepsInv (.refused r) := nofun

open Attempt (KeepsInv)

section
variable {s : State} (h : s.Inv)
include h

theorem ite_inv {t : State} {p : Prop} [Decidable p] (ht : t.Inv) : (if p then s else t).Inv := by
  split
  · exact h
  · exact ht

/-! Writes of operands. -/

theorem writeWord_keepsInv (sp : Space) (a v : Word) : KeepsInv (s.writeWord sp a v) := by
  intro t ht
  obtain ⟨-, rfl⟩ := State.writeWord_ok ht
  exact h.putWord sp a v

theorem writeLong_keepsInv (sp : Space) (a : Word) (v : Long) : KeepsInv (s.writeLong sp a v) := by
  intro t ht
  obtain ⟨-, rfl⟩ := State.writeLong_ok ht
  exact (h.putWord sp a _).putWord sp _ _

theorem setPair_keepsInv (c : RegCode) (v : Long) : KeepsInv (s.setPair c v) := by
  intro t ht
  obtain ⟨-, rfl⟩ := State.setPair_ok ht
  exact h.setPairValue c v

theorem setQuad_keepsInv (c : RegCode) (v : Quad) : KeepsInv (s.setQuad c v) := by
  intro t ht
  obtain ⟨-, rfl⟩ := State.setQuad_ok ht
  exact (h.setPairValue c _).setPairValue _ _

theorem setDstByte_keepsInv (dst : Dst) (v : Byte) : KeepsInv (s.setDstByte dst v) := by
  cases dst with
  | reg c => exact .ok (h.setByteReg c v)
  | mem m => exact .ok (h.writeByte _ _ v)

theorem setDstWord_keepsInv (dst : Dst) (v : Word) : KeepsInv (s.setDstWord dst v) := by
  cases dst with
  | reg c => exact .ok (h.setReg c v)
  | mem m => exact writeWord_keepsInv h _ _ v

theorem setDstLong_keepsInv (dst : Dst) (v : Long) : KeepsInv (s.setDstLong dst v) := by
  cases dst with
  | reg c => exact setPair_keepsInv h c v
  | mem m => exact writeLong_keepsInv h _ _ v

/-! The shapes of meanings. -/

theorem binaryByte_keepsInv (op : Byte → Byte → Byte × FlagWrite) (d : RegCode) (src : Src 8) :
    KeepsInv (binaryByte op d src s) :=
  .read fun _ => .read fun _ => .ok ((h.setByteReg d _).setFlags _)

theorem binaryWord_keepsInv (op : Word → Word → Word × FlagWrite) (d : RegCode) (src : Src 16) :
    KeepsInv (binaryWord op d src s) :=
  .read fun _ => .read fun _ => .ok ((h.setReg d _).setFlags _)

theorem binaryLong_keepsInv (op : Long → Long → Long × FlagWrite) (d : RegCode) (src : Src 32) :
    KeepsInv (binaryLong op d src s) :=
  .read fun _ => .read fun _ => .write (setPair_keepsInv h d _) fun _ ht => .ok (ht.setFlags _)

theorem compareByte_keepsInv (op : Byte → Byte → FlagWrite) (d : RegCode) (src : Src 8) :
    KeepsInv (compareByte op d src s) :=
  .read fun _ => .read fun _ => .ok (h.setFlags _)

theorem compareWord_keepsInv (op : Word → Word → FlagWrite) (d : RegCode) (src : Src 16) :
    KeepsInv (compareWord op d src s) :=
  .read fun _ => .read fun _ => .ok (h.setFlags _)

theorem compareLong_keepsInv (op : Long → Long → FlagWrite) (d : RegCode) (src : Src 32) :
    KeepsInv (compareLong op d src s) :=
  .read fun _ => .read fun _ => .ok (h.setFlags _)

theorem modifyByte_keepsInv (op : Byte → Byte × FlagWrite) (dst : Dst) : KeepsInv (modifyByte op dst s) :=
  .read fun _ => .write (setDstByte_keepsInv h dst _) fun _ ht => .ok (ht.setFlags _)

theorem modifyWord_keepsInv (op : Word → Word × FlagWrite) (dst : Dst) : KeepsInv (modifyWord op dst s) :=
  .read fun _ => .write (setDstWord_keepsInv h dst _) fun _ ht => .ok (ht.setFlags _)

theorem examineByte_keepsInv (op : Byte → FlagWrite) (dst : Dst) : KeepsInv (examineByte op dst s) :=
  .read fun _ => .ok (h.setFlags _)

theorem examineWord_keepsInv (op : Word → FlagWrite) (dst : Dst) : KeepsInv (examineWord op dst s) :=
  .read fun _ => .ok (h.setFlags _)

theorem examineLong_keepsInv (op : Long → FlagWrite) (dst : Dst) : KeepsInv (examineLong op dst s) :=
  .read fun _ => .ok (h.setFlags _)

theorem rotateByte_keepsInv (k : ShiftKind) (d : RegCode) (two : Bool) : KeepsInv (rotateByte k d two s) :=
  .ok ((h.setByteReg d _).setFlags _)

theorem rotateWord_keepsInv (k : ShiftKind) (d : RegCode) (two : Bool) : KeepsInv (rotateWord k d two s) :=
  .ok ((h.setReg d _).setFlags _)

theorem shiftByte_keepsInv (arithmetic : Bool) (d : RegCode) (count : Int) (carry : ZeroCountCarry) :
    KeepsInv (shiftByte arithmetic d count carry s) :=
  .ok ((h.setByteReg d _).setFlags _)

theorem shiftWord_keepsInv (arithmetic : Bool) (d : RegCode) (count : Int) (carry : ZeroCountCarry) :
    KeepsInv (shiftWord arithmetic d count carry s) :=
  .ok ((h.setReg d _).setFlags _)

theorem shiftLong_keepsInv (arithmetic : Bool) (d : RegCode) (count : Int) (carry : ZeroCountCarry) :
    KeepsInv (shiftLong arithmetic d count carry s) :=
  .read fun _ => .write (setPair_keepsInv h d _) fun _ ht => .ok (ht.setFlags _)

/-! The stack. -/

theorem pushThrough_keepsInv (sp : RegCode) (v : Word) : KeepsInv (pushThrough s sp v) :=
  writeWord_keepsInv (h.setReg sp _) _ _ v

theorem pushWord_keepsInv (v : Word) : KeepsInv (s.pushWord v) := writeWord_keepsInv (h.setReg _ _) _ _ v

/-- A pop changes R15 only. -/
theorem popWord_inv {p : Word × State} (hp : s.popWord = .ok p) : p.2.Inv := by
  unfold State.popWord at hp
  cases hv : s.readWord .stack (s.reg 0xF#4) with
  | error r => rw [hv] at hp; cases hp
  | ok v => rw [hv] at hp; cases hp; exact h.setReg _ _

theorem ret_keepsInv (cc : Cond) : Result.KeepsInv (execRet cc s) := by
  unfold execRet
  split
  · exact .finish (.bind fun _ hp => .ok ((popWord_inv h hp).jump _))
  · exact .next h

theorem callTo_keepsInv (target : Word) : KeepsInv (callTo s target) :=
  .write (pushWord_keepsInv h _) fun _ ht => .ok (ht.jump target)

end

/-! Several registers: induction on their number. -/

theorem loadMultiple_keepsInv (sp : Space) (n : Nat) (d : RegCode) (a : Word) {s : State} (h : s.Inv) :
    KeepsInv (loadMultiple sp n d a s) := by
  induction n generalizing d a s with
  | zero => exact .ok h
  | succ n ih => exact .read fun v => ih _ _ (h.setReg d v)

theorem storeMultiple_keepsInv (sp : Space) (n : Nat) (r : RegCode) (a : Word) {s : State} (h : s.Inv) :
    KeepsInv (storeMultiple sp n r a s) := by
  induction n generalizing r a s with
  | zero => exact .ok h
  | succ n ih => exact .write (writeWord_keepsInv h sp a _) fun _ ht => ih _ _ ht

section
variable {s : State} (h : s.Inv)
include h

/-! The block instructions: checks, reads, then the writes of one iteration. -/

theorem compareRegisterWord_keepsInv (up repeats : Bool) (d p r : RegCode) (cc : Cond) :
    KeepsInv (compareRegisterWord up repeats d p r cc s) :=
  .read fun _ => .read fun _ => .read fun _ => .read fun _ => .ok ((h.setReg p _).endIteration ..)

theorem compareRegisterByte_keepsInv (up repeats : Bool) (d p r : RegCode) (cc : Cond) :
    KeepsInv (compareRegisterByte up repeats d p r cc s) :=
  .read fun _ => .read fun _ => .read fun _ => .read fun _ => .ok ((h.setReg p _).endIteration ..)

theorem compareStringWord_keepsInv (up repeats : Bool) (d p r : RegCode) (cc : Cond) :
    KeepsInv (compareStringWord up repeats d p r cc s) :=
  .read fun _ => .read fun _ => .read fun _ => .read fun _ => .read fun _ =>
    .ok (((h.setReg p _).setReg d _).endIteration ..)

theorem compareStringByte_keepsInv (up repeats : Bool) (d p r : RegCode) (cc : Cond) :
    KeepsInv (compareStringByte up repeats d p r cc s) :=
  .read fun _ => .read fun _ => .read fun _ => .read fun _ => .read fun _ =>
    .ok (((h.setReg p _).setReg d _).endIteration ..)

theorem moveElementWord_keepsInv (up repeats : Bool) (d p r : RegCode) :
    KeepsInv (moveElementWord up repeats d p r s) :=
  .read fun _ => .read fun _ => .read fun _ => .read fun _ => .write (writeWord_keepsInv h _ _ _) fun _ ht =>
    .ok (((ht.setReg p _).setReg d _).endIteration ..)

theorem moveElementByte_keepsInv (up repeats : Bool) (d p r : RegCode) :
    KeepsInv (moveElementByte up repeats d p r s) :=
  .read fun _ => .read fun _ => .read fun _ => .read fun _ => .write (.ok (h.writeByte _ _ _)) fun _ ht =>
    .ok (((ht.setReg p _).setReg d _).endIteration ..)

theorem translateElement_keepsInv (up repeats : Bool) (d p r : RegCode) :
    KeepsInv (translateElement up repeats d p r s) :=
  .read fun _ => .read fun _ => .read fun _ => .ok (((h.writeByte _ _ _).setReg d _).endIteration ..)

theorem translateTestElement_keepsInv (up repeats : Bool) (p1 p2 r : RegCode) :
    KeepsInv (translateTestElement up repeats p1 p2 r s) :=
  .read fun _ => .read fun _ => .read fun _ => .ok (((h.setByteReg _ _).setReg p1 _).endIteration ..)

theorem inputElementWord_keepsInv (space : IoSpace) (up repeats : Bool) (d p r : RegCode) :
    KeepsInv (inputElementWord space up repeats d p r s) :=
  .read fun _ => .read fun _ => .read fun _ => .write (writeWord_keepsInv h _ _ _) fun _ ht =>
    .ok ((ht.setReg d _).endIteration ..)

theorem inputElementByte_keepsInv (space : IoSpace) (up repeats : Bool) (d p r : RegCode) :
    KeepsInv (inputElementByte space up repeats d p r s) :=
  .read fun _ => .read fun _ => .read fun _ => .write (.ok (h.writeByte _ _ _)) fun _ ht =>
    .ok ((ht.setReg d _).endIteration ..)

theorem outputElementWord_keepsInv (space : IoSpace) (up repeats : Bool) (d p r : RegCode) :
    KeepsInv (outputElementWord space up repeats d p r s) :=
  .read fun _ => .read fun _ => .read fun _ => .read fun _ => .ok (((h.ioWriteWord ..).setReg p _).endIteration ..)

theorem outputElementByte_keepsInv (space : IoSpace) (up repeats : Bool) (d p r : RegCode) :
    KeepsInv (outputElementByte space up repeats d p r s) :=
  .read fun _ => .read fun _ => .read fun _ => .read fun _ => .ok (((h.ioWriteByte ..).setReg p _).endIteration ..)

/-! Traps, interrupts and privilege. -/

/-- The frame is pushed in System mode, which holds already, and the new FCW is masked (60_exceptions.md R701). -/
theorem trapEntry_keepsInv (identifier savedPc fcwOffset pcOffset : Word) :
    KeepsInv (s.trapEntry identifier savedPc fcwOffset pcOffset) :=
  have hsys : ({ s with fcw := s.fcw ||| 0x4000#16 } : State).Inv := h.withFcw (h.orSystem.symm ▸ h.status)
  .write (pushWord_keepsInv hsys _) fun _ h1 => .write (pushWord_keepsInv h1 _) fun _ h2 =>
    .write (pushWord_keepsInv h2 _) fun _ h3 => .read fun f => .read fun p =>
      .ok ((h3.loadStatus f p).congr rfl rfl rfl)

theorem trapReturn_keepsInv : KeepsInv s.trapReturn :=
  .read fun _ => .read fun _ => .ok ((h.setReg _ _).loadStatus _ _)

/-- Under the invariant a privileged instruction runs: Normal mode does not occur (10_state.md R30). -/
theorem privileged_keepsInv {i : Instr} {body : Result} (hb : Result.KeepsInv body) :
    Result.KeepsInv (privileged i s body) := by
  rw [privileged_system h.system]
  exact hb

/-- An accepted interrupt is an entry, after the acknowledge (R713). -/
theorem interrupt_keepsInv {now : Sample} {entry : Attempt State} (he : s.interrupt now = some entry) :
    KeepsInv entry := by
  unfold State.interrupt at he
  split at he
  · cases he
    have hlatch : ({ s with nmip := false } : State).Inv := h.congr rfl rfl rfl
    exact trapEntry_keepsInv (hlatch.emit _) _ _ _ _
  · split at he
    · cases he; exact trapEntry_keepsInv (h.emit _) _ _ _ _
    · split at he
      · cases he; exact trapEntry_keepsInv (h.emit _) _ _ _ _
      · cases he

end

section
variable {s : State} (h : s.Inv)
include h

/-- Every instruction keeps the invariant, by the shape of its meaning. -/
theorem exec_keepsInv (i : Instr) : Result.KeepsInv (exec i s) := by
  cases i with
  -- a register and a source, or one operand
  | add | sub | and | or | xor => exact .finish (binaryWord_keepsInv h _ _ _)
  | addb | subb | andb | orb | xorb => exact .finish (binaryByte_keepsInv h _ _ _)
  | addl | subl => exact .finish (binaryLong_keepsInv h _ _ _)
  | cp => exact .finish (compareWord_keepsInv h _ _ _)
  | cpb => exact .finish (compareByte_keepsInv h _ _ _)
  | cpl => exact .finish (compareLong_keepsInv h _ _ _)
  | cpMem | bit | test => exact .finish (examineWord_keepsInv h _ _)
  | bitb | testb => exact .finish (examineByte_keepsInv h _ _)
  | testl => exact .finish (examineLong_keepsInv h _ _)
  | inc | dec | neg | com | res | set | tset => exact .finish (modifyWord_keepsInv h _ _)
  | incb | decb | negb | comb | resb | setb | tsetb => exact .finish (modifyByte_keepsInv h _ _)
  -- the same with operands that are never refused
  | adc d | sbc d | resDyn d | setDyn d => exact .next ((h.setReg d _).setFlags _)
  | adcb d | sbcb d | resbDyn d | setbDyn d => exact .next ((h.setByteReg d _).setFlags _)
  | cpbMem | bitDyn | bitbDyn => exact .next (h.setFlags _)
  -- other arithmetic
  | dab d => exact .next ((h.setByteReg d _).setFlags _)
  | extsb d => exact .next (h.setReg d _)
  | exts d => exact .finish (.read fun _ => .ok (h.setReg d _))
  | extsl d => exact .finish (.read fun _ => .ok (h.setPairValue d _))
  | mult d | div d =>
    exact .finish (.read fun _ => .read fun _ => .read fun _ => .write (setPair_keepsInv h d _) fun _ ht =>
      .ok (ht.setFlags _))
  | multl d | divl d =>
    exact .finish (.read fun _ => .read fun _ => .read fun _ => .write (setQuad_keepsInv h d _) fun _ ht =>
      .ok (ht.setFlags _))
  -- flags: the mask of the instruction has no fixed bit
  | comflg f => exact .next (h.withFcw (fcwMask_xor (fcwMask_xor h.status (flagMask_free f)) (by decide)))
  | resflg f => exact .next (h.withFcw (fcwMask_andNot h.status (flagMask_free f)))
  | setflg f => exact .next (h.withFcw (fcwMask_or h.status (flagMask_free f)))
  | tcc cc d => exact .next (ite_inv (h.setReg d _) h)
  | tccb cc d => exact .next (ite_inv (h.setByteReg d _) h)
  -- program control
  | call | calr => exact .finish (callTo_keepsInv h _)
  | djnz r => exact .next (ite_inv (h.setReg r _) ((h.setReg r _).jump _))
  | dbjnz r => exact .next (ite_inv (h.setByteReg r _) ((h.setByteReg r _).jump _))
  | jp | jr => exact .next (ite_inv (h.jump _) h)
  | ret cc => exact ret_keepsInv h cc
  -- load, store, exchange
  | clr dst => exact .finish (setDstWord_keepsInv h dst _)
  | clrb dst => exact .finish (setDstByte_keepsInv h dst _)
  | ex d src =>
    exact .finish (.read fun _ => .read fun _ => .write (setDstWord_keepsInv h src _) fun _ ht => .ok (ht.setReg d _))
  | exb d src =>
    exact .finish (.read fun _ => .read fun _ => .write (setDstByte_keepsInv h src _) fun _ ht =>
      .ok (ht.setByteReg d _))
  | ld d | ldr d => exact .finish (.read fun _ => .ok (h.setReg d _))
  | ldb d => exact .finish (.read fun _ => .ok (h.setByteReg d _))
  | ldl d | ldrl d => exact .finish (.read fun _ => setPair_keepsInv h d _)
  | ldrb d | ldbShort d => exact .next (h.setByteReg d _)
  | lda d | ldar d | ldk d => exact .next (h.setReg d _)
  | ldStore | ldrStore => exact .finish (.read fun _ => writeWord_keepsInv h _ _ _)
  | ldlStore | ldrlStore => exact .finish (.read fun _ => writeLong_keepsInv h _ _ _)
  | ldImm => exact .finish (writeWord_keepsInv h _ _ _)
  | ldbStore | ldrbStore | ldbImm => exact .next (h.writeByte _ _ _)
  | ldm => exact .finish (loadMultiple_keepsInv _ _ _ _ h)
  | ldmStore => exact .finish (storeMultiple_keepsInv _ _ _ _ h)
  -- the stack
  | pop dst sp =>
    exact .finish (.read fun _ => .read fun _ => .write (setDstWord_keepsInv h dst _) fun _ ht => .ok (ht.setReg sp _))
  | popl dst sp =>
    exact .finish (.read fun _ => .read fun _ => .write (setDstLong_keepsInv h dst _) fun _ ht => .ok (ht.setReg sp _))
  | push sp => exact .finish (.read fun _ => pushThrough_keepsInv h sp _)
  | pushl sp => exact .finish (.read fun _ => writeLong_keepsInv (h.setReg sp _) _ _ _)
  | pushImm sp => exact .finish (pushThrough_keepsInv h sp _)
  -- rotate and shift
  | rl | rlc | rr | rrc => exact .finish (rotateWord_keepsInv h _ _ _)
  | rlb | rlcb | rrb | rrcb => exact .finish (rotateByte_keepsInv h _ _ _)
  | rldb d r | rrdb d r =>
    exact .finish (.read fun _ => .ok (((h.setByteReg d _).setByteReg r _).setFlags _))
  | sda | sdl | sla | sll | sra | srl => exact .finish (shiftWord_keepsInv h _ _ _ _)
  | sdab | sdlb | slab | sllb | srab | srlb => exact .finish (shiftByte_keepsInv h _ _ _ _)
  | sdal | sdll | slal | slll | sral | srll => exact .finish (shiftLong_keepsInv h _ _ _ _)
  -- the block instructions
  | cpd | cpdr | cpi | cpir => exact .finish (compareRegisterWord_keepsInv h _ _ _ _ _ _)
  | cpdb | cpdrb | cpib | cpirb => exact .finish (compareRegisterByte_keepsInv h _ _ _ _ _ _)
  | cpsd | cpsdr | cpsi | cpsir => exact .finish (compareStringWord_keepsInv h _ _ _ _ _ _)
  | cpsdb | cpsdrb | cpsib | cpsirb => exact .finish (compareStringByte_keepsInv h _ _ _ _ _ _)
  | ldd | lddr | ldi | ldir => exact .finish (moveElementWord_keepsInv h _ _ _ _ _)
  | lddb | lddrb | ldib | ldirb => exact .finish (moveElementByte_keepsInv h _ _ _ _ _)
  | trdb | trdrb | trib | trirb => exact .finish (translateElement_keepsInv h _ _ _ _ _)
  | trtdb | trtdrb | trtib | trtirb => exact .finish (translateTestElement_keepsInv h _ _ _ _ _)
  -- input and output
  | inp d | sin d => exact privileged_keepsInv h (.next (h.setReg d _))
  | inb d | sinb d => exact privileged_keepsInv h (.next (h.setByteReg d _))
  | out | sout => exact privileged_keepsInv h (.next (h.ioWriteWord _ _ _))
  | outb | soutb => exact privileged_keepsInv h (.next (h.ioWriteByte _ _ _))
  | ind | indr | ini | inir | sind | sindr | sini | sinir =>
    exact privileged_keepsInv h (.finish (inputElementWord_keepsInv h _ _ _ _ _ _))
  | indb | indrb | inib | inirb | sindb | sindrb | sinib | sinirb =>
    exact privileged_keepsInv h (.finish (inputElementByte_keepsInv h _ _ _ _ _ _))
  | outd | otdr | outi | otir | soutd | sotdr | souti | sotir =>
    exact privileged_keepsInv h (.finish (outputElementWord_keepsInv h _ _ _ _ _ _))
  | outdb | otdrb | outib | otirb | soutdb | sotdrb | soutib | sotirb =>
    exact privileged_keepsInv h (.finish (outputElementByte_keepsInv h _ _ _ _ _ _))
  -- control
  | di vn => exact privileged_keepsInv h (.next (h.withFcw (fcwMask_andNot h.status (enableMask_free _))))
  | ei vn => exact privileged_keepsInv h (.next (h.withFcw (fcwMask_or h.status (enableMask_free _))))
  | halt => exact privileged_keepsInv h (.next (h.congr rfl rfl rfl))
  | iret => exact privileged_keepsInv h (.finish (trapReturn_keepsInv h))
  | ldctlTo c => exact privileged_keepsInv h (.next (h.setControl c _))
  | ldctlFrom d => exact privileged_keepsInv h (.next (h.setReg d _))
  | ldctlbTo r => exact .next (h.withFcw (fcwMask_lowByte h.status _))
  | ldctlbFrom d => exact .next (h.setByteReg d _)
  | ldps => exact privileged_keepsInv h (.finish (.read fun _ => .read fun _ => .ok (h.loadStatus _ _)))
  | mbit => exact privileged_keepsInv h (.next (h.setFlags _))
  | mreq d => exact privileged_keepsInv h (.next (h.requestMicro d))
  | mres | mset => exact privileged_keepsInv h (.next (h.setMob _))
  | nop => exact .next h
  -- the trap to software
  | sc | ldEpu | ldbEpu | epui | trappedReserved | trappedEpu | trappedReservedSc =>
    exact .finish (trapEntry_keepsInv h _ _ _ _)

/-- An instruction at the pc, or a refusal: under the invariant words that are no instruction do not trap. -/
theorem runInstruction_keepsInv : Result.KeepsInv (runInstruction s) := by
  cases hpc : evenAddress s.pc with
  | false => rw [runInstruction_of_odd hpc]; exact .refused _
  | true =>
    cases hd : decode s.instructionWords with
    | ok d => rw [runInstruction_of_decode hpc hd]; exact exec_keepsInv (h.advance _) _
    | error why =>
      rw [runInstruction_of_error hpc hd, State.undecoded_refused why (.inl h.system)]
      exact .refused _

/-- A step is a reset, an entry, an idle step or an instruction, and each keeps the invariant. -/
theorem step_keepsInv : Result.KeepsInv (step s) := by
  have hs := h.sampleInputs
  unfold step
  dsimp only
  split
  · exact .next hs.deviceReset
  · split
    · next entry he => exact .finish (interrupt_keepsInv hs he)
    · split
      · exact .next hs
      · exact runInstruction_keepsInv hs

end

end Sys2Proof.Machine

section
open Sys2Proof Sys2Proof.Machine

/-- Settles O8: a step is a reset, an entry, an idle step or an instruction, and every update that these are made of
keeps the invariant (`step_keepsInv`). -/
theorem everyStepKeepsInvariant : Obligations.EveryStepKeepsInvariant := fun _ t h ht => step_keepsInv h t ht

/-- Settles O9: memory after reset lists nothing, and FCW and PSAP are 0x4000 and 0. -/
theorem resetMeetsInvariant : Obligations.ResetMeetsInvariant where
  memory := reset_memory_wf
  status := by decide
  area := by decide

/-- Settles O10: a memory that nothing has written gives the words 0 at 0x0002 and 0x0004. -/
theorem resetHasTheGivenValues : Obligations.ResetHasTheGivenValues := by
  have hfcw : State.reset.wordAt .program 0x0002#16 = 0x0000#16 := by decide
  have hpc : State.reset.wordAt .program 0x0004#16 = 0x0000#16 := by decide
  exact ⟨rfl, rfl, by rw [hfcw]; decide, hpc.symm, rfl, rfl, rfl⟩
end

/-! The register file and the operands of the modes (10_state.md R22 to R24; 30_encoding.md R130 to R139). -/

namespace Sys2Proof.Machine

open Sys2Proof

/-- Below 8 a code is its own home, and 8 more is the code of the low byte there. -/
theorem byteHome_of_low {n : RegCode} (hn : n.getLsbD 3 = false) :
    byteHome n = n ∧ byteHome (n + 8) = n ∧ (n + 8).getLsbD 3 = true := by
  revert n; decide

/-- A word register is its two byte registers (10_state.md R22). -/
theorem State.reg_eq_byteRegs (s : State) {n : RegCode} (hn : n.getLsbD 3 = false) :
    s.reg n = s.byteReg n ++ s.byteReg (n + 8) := by
  obtain ⟨hhigh, hlow, hbit⟩ := byteHome_of_low hn
  simp only [State.byteReg, hhigh, hlow, hn, hbit, if_true, Bool.false_eq_true, if_false, bytes_append]

end Sys2Proof.Machine

section
open Sys2Proof Sys2Proof.Machine

/-- Settles O20, part by part: the register file by `State.reg_eq_byteRegs`, `State.pair_legal` and `State.quad_legal`, the
addresses and the direct operands by definition, the memory operands by `State.readWord_even` and `State.readLong_even`. -/
theorem registersAndOperands : Obligations.RegistersAndOperands := by
  refine ⟨fun s => ⟨fun n hn => s.reg_eq_byteRegs hn, fun c hc => State.pair_legal hc, fun c hc => State.quad_legal hc⟩,
    fun s r x a => ⟨rfl, rfl, rfl, rfl, rfl, fun m => rfl⟩, fun s r w b l => ?direct, fun s => ⟨?memory, ?loads⟩⟩
  case direct =>
    exact ⟨⟨rfl, rfl, rfl⟩, ⟨rfl, rfl, rfl⟩,
      fun hr => ⟨State.pair_legal hr, State.pair_legal hr, State.pair_legal hr⟩, rfl, rfl, rfl, rfl, rfl, rfl⟩
  case memory =>
    rintro m _ rfl
    exact ⟨rfl, rfl, fun he => ⟨State.readWord_even he, State.readWord_even he, State.readLong_even he,
      State.readLong_even he⟩⟩
  case loads =>
    rintro m r x disp e hmem _ rfl
    simp only [List.mem_cons, List.not_mem_nil, or_false] at hmem
    obtain rfl | rfl | rfl := hmem <;>
      exact ⟨rfl, fun he => ⟨State.readWord_even he, State.readLong_even he⟩⟩
end

/-! The addition and subtraction helpers against the exact integers (40_arithmetic.md R201, R202), at any width. -/

namespace Sys2Proof.Machine

open Sys2Proof

/-- Half of the range of a width that is not zero. -/
theorem exists_half {n : Nat} (hn : 0 < n) : ∃ half, 2 ^ n = 2 * half :=
  ⟨2 ^ (n - 1), by rw [← Nat.pow_succ', Nat.succ_eq_add_one, Nat.sub_add_cancel hn]⟩

/-- A value in the lower half has no sign bit and stands for itself; one in the upper half has it, and stands for `2 ^ n`
less. -/
theorem toInt_by_sign {n half : Nat} (hn : 2 ^ n = 2 * half) (x : BitVec n) :
    (x.msb = false ∧ x.toNat < half ∧ x.toInt = x.toNat) ∨
      (x.msb = true ∧ half ≤ x.toNat ∧ x.toInt = x.toNat - 2 * half) := by
  have hmsb : x.msb = true ↔ x.toInt < 0 := by rw [BitVec.msb_eq_toInt, decide_eq_true_iff]
  have hint := BitVec.toInt_eq_msb_cond x
  rw [BitVec.toInt_neg_iff, hn] at hmsb
  rw [hn] at hint
  cases hx : x.msb with
  | false =>
    rw [hx] at hmsb hint
    exact .inl ⟨rfl, by simpa using hmsb, hint⟩
  | true =>
    rw [hx] at hmsb hint
    exact .inr ⟨rfl, by simpa using hmsb, by simpa using hint⟩

/-- A result is zero when its unsigned value is. -/
theorem beq_zero_eq_toNat {n : Nat} (x : BitVec n) : (x == 0) = decide (x.toNat = 0) := by
  rw [Bool.eq_iff_iff, beq_iff_eq, decide_eq_true_iff, ← BitVec.toNat_inj]
  rfl

/-- The ones complement of a signed number. -/
theorem toInt_complement {n : Nat} (hn : 0 < n) (x : BitVec n) : (~~~x).toInt = -x.toInt - 1 := by
  obtain ⟨half, hhalf⟩ := exists_half hn
  have hnat : (~~~x).toNat = 2 * half - 1 - x.toNat := by rw [BitVec.toNat_not, hhalf]
  have hx := x.isLt
  have sx := toInt_by_sign hhalf x
  have sy := toInt_by_sign hhalf (~~~x)
  omega

section
variable {n : Nat} (a b : BitVec n) (c : Bool)

theorem addWith_toNat : (addWith a b c).value.toNat = (a.toNat + b.toNat + c.toNat) % 2 ^ n :=
  BitVec.toNat_ofNat _ _

/-- The overflow of an addition: two operands of one sign and a result of the other. -/
theorem addWith_v : (addWith a b c).v = (a.msb == b.msb && (addWith a b c).value.msb != a.msb) := rfl

/-- Those signs occur exactly when the exact signed sum is no n-bit number. -/
theorem addWith_overflow (hn : 0 < n) :
    (addWith a b c).v = decide ((addWith a b c).value.toInt ≠ a.toInt + b.toInt + (c.toNat : Int)) := by
  obtain ⟨half, hhalf⟩ := exists_half hn
  have hc := Bool.toNat_le c
  have ha := a.isLt
  have hb := b.isLt
  have hr := addWith_toNat a b c
  rw [addWith_v, Bool.eq_iff_iff, decide_eq_true_iff]
  generalize (addWith a b c).value = r at hr ⊢
  rw [hhalf] at ha hb hr
  have hwrap : r.toNat = a.toNat + b.toNat + c.toNat ∨ r.toNat + 2 * half = a.toNat + b.toNat + c.toNat := by
    rcases Nat.lt_or_ge (a.toNat + b.toNat + c.toNat) (2 * half) with hlt | hge
    · exact .inl (hr.trans (Nat.mod_eq_of_lt hlt))
    · rw [Nat.mod_eq_sub_mod hge, Nat.mod_eq_of_lt (by omega)] at hr
      omega
  rcases toInt_by_sign hhalf a with ⟨sa, ra, ia⟩ | ⟨sa, ra, ia⟩ <;>
    rcases toInt_by_sign hhalf b with ⟨sb, rb, ib⟩ | ⟨sb, rb, ib⟩ <;>
    rcases toInt_by_sign hhalf r with ⟨sr, rr, ir⟩ | ⟨sr, rr, ir⟩ <;>
    simp only [sa, sb, sr, ia, ib, ir] <;> simp <;> omega

/-! A subtraction is the addition of the ones complement with the borrow inverted. -/

theorem subWith_toNat :
    ((subWith a b c).value.toNat : Int) = ((a.toNat : Int) - b.toNat - c.toNat) % 2 ^ n := by
  have hpos : ((2 ^ n : Nat) : Int) ≠ 0 := by positivity
  have hnat : (subWith a b c).value.toNat = (((a.toNat : Int) - b.toNat - c.toNat) % ((2 ^ n : Nat) : Int)).toNat :=
    BitVec.toNat_ofInt _
  rw [hnat, Int.toNat_of_nonneg (Int.emod_nonneg _ hpos)]
  exact congrArg (_ % ·) (Nat.cast_pow 2 n)

/-- The overflow of a subtraction: two operands of different signs and a result of the subtrahend's. -/
theorem subWith_v : (subWith a b c).v = (a.msb != b.msb && (subWith a b c).value.msb != a.msb) := rfl

theorem addWith_value_carry : (addWith a b c).value = a + b + BitVec.ofNat n c.toNat := by
  simp [addWith, BitVec.ofNat_add]

theorem subWith_value_borrow : (subWith a b c).value = a - b - BitVec.ofNat n c.toNat := by
  simp [subWith, Int.sub_eq_add_neg, BitVec.ofInt_add, BitVec.ofInt_neg, BitVec.sub_eq_add_neg]

theorem subWith_value_eq_addWith : (subWith a b c).value = (addWith a (~~~b) (!c)).value := by
  rw [subWith_value_borrow, addWith_value_carry, BitVec.not_eq_neg_add]
  cases c <;> simp [BitVec.sub_eq_add_neg, BitVec.add_assoc]

theorem subWith_v_eq_addWith (hn : 0 < n) : (subWith a b c).v = (addWith a (~~~b) (!c)).v := by
  rw [subWith_v, addWith_v, ← subWith_value_eq_addWith, BitVec.msb_not]
  cases a.msb <;> cases b.msb <;> simp [hn]

theorem subWith_overflow (hn : 0 < n) :
    (subWith a b c).v = decide ((subWith a b c).value.toInt ≠ a.toInt - b.toInt - (c.toNat : Int)) := by
  have hexact : a.toInt + (~~~b).toInt + ((!c).toNat : Int) = a.toInt - b.toInt - c.toNat := by
    rw [toInt_complement hn]
    cases c <;> simp <;> omega
  rw [subWith_v_eq_addWith a b c hn, addWith_overflow _ _ _ hn, ← subWith_value_eq_addWith, hexact]

end

end Sys2Proof.Machine

section
open Sys2Proof Sys2Proof.Machine

/-- Settles O25: carry and half carry are the definition, the overflow is `addWith_overflow`. -/
theorem additionHelper : Obligations.AdditionHelper := fun _ a b c hn =>
  ⟨addWith_toNat a b c, rfl, beq_zero_eq_toNat _, BitVec.msb_eq_toInt, addWith_overflow a b c hn, rfl⟩

/-- Settles O26: the borrow is a negative exact difference, the overflow is `subWith_overflow`. -/
theorem subtractionHelper : Obligations.SubtractionHelper := by
  intro n a b c hn
  have hborrow : (subWith a b c).c = decide (a.toNat < b.toNat + c.toNat) :=
    decide_eq_decide.mpr (by omega)
  exact ⟨subWith_toNat a b c, hborrow, beq_zero_eq_toNat _, BitVec.msb_eq_toInt, subWith_overflow a b c hn, rfl⟩
end

/-! Words and longs in memory: the long read back, and the refusal at odd addresses (20_memory.md R64, R65, R67). -/

namespace Sys2Proof.Machine

/-- The high word of a stored long stands at its address: the store of the low word, two bytes on, leaves it. -/
theorem State.wordAt_putLong_high (s : State) (sp sq : Space) (a : Word) (v : Long) :
    (s.putLong sp a v).wordAt sq a = v.extractLsb' 16 16 := by
  unfold State.putLong
  rw [State.wordAt_putWord_other _ _ _ _ (by bv_omega) (by bv_omega) (by bv_omega), State.wordAt_putWord_same]

theorem State.wordAt_putLong_low (s : State) (sp sq : Space) (a : Word) (v : Long) :
    (s.putLong sp a v).wordAt sq (a + 2) = v.extractLsb' 0 16 := State.wordAt_putWord_same _ _ _ _ _

theorem State.readWord_putWord {a : Word} (h : evenAddress a = true) (s : State) (sp : Space) (v : Word) :
    (s.putWord sp a v).readWord sp a = .ok v := by
  rw [State.readWord_even h, State.wordAt_putWord_same]

theorem State.readLong_putLong {a : Word} (h : evenAddress a = true) (s : State) (sp : Space) (v : Long) :
    (s.putLong sp a v).readLong sp a = .ok v := by
  rw [State.readLong_even h, State.wordAt_putLong_high, State.wordAt_putLong_low, words_append]

section Odd
variable {a : Word} (h : evenAddress a = false) (s : State) (sp : Space)
include h

theorem State.readWord_odd : s.readWord sp a = .error .misalignedAccess := by
  simp [State.readWord, h]

theorem State.writeWord_odd (v : Word) : s.writeWord sp a v = .error .misalignedAccess := by
  simp [State.writeWord, h]

theorem State.readLong_odd : s.readLong sp a = .error .misalignedAccess := by
  simp [State.readLong, h]

theorem State.writeLong_odd (v : Long) : s.writeLong sp a v = .error .misalignedAccess := by
  simp [State.writeLong, h]

end Odd

end Sys2Proof.Machine

section
open Sys2Proof Sys2Proof.Machine

/-- Settles O21: at an even address the store succeeds, its bytes are those of `wordStored_putWord` and
`longStored_putLong`, and it is read back; at an odd one each access is refused. -/
theorem memoryIsBigEndian : Obligations.MemoryIsBigEndian := by
  intro s sp a
  refine ⟨fun v heven => ?word, fun v heven => ?long, fun w v hodd => ?odd⟩
  case word =>
    exact ⟨s.putWord sp a v, State.writeWord_even heven, wordStored_putWord s (sp, a) v,
      State.readWord_putWord heven s sp v⟩
  case long =>
    exact ⟨s.putLong sp a v, State.writeLong_even heven, longStored_putLong s (sp, a) v,
      State.readLong_putLong heven s sp v⟩
  case odd =>
    exact ⟨State.readWord_odd hodd s sp, State.writeWord_odd hodd s sp w,
      State.readLong_odd hodd s sp, State.writeLong_odd hodd s sp v⟩
end

/-! What the decoder answers (30_encoding.md R101, R140, R144). First: the words that trap. -/

namespace Sys2Proof

/-- The instructions that a trapped first word may be read as. -/
def trapInstrs (w : Word) : List Instr :=
  [.ldEpu w, .ldbEpu w, .epui w, .trappedReserved w, .trappedEpu w, .trappedReservedSc w]

theorem mem_trapInstrs {w : Word} {i : Instr} : i ∈ trapInstrs w ↔ i = .ldEpu w ∨ i = .ldbEpu w ∨ i = .epui w ∨
    i = .trappedReserved w ∨ i = .trappedEpu w ∨ i = .trappedReservedSc w := by
  simp only [trapInstrs, List.mem_cons, List.not_mem_nil, or_false]

theorem epuInstr_mem_trapInstrs (w : Word) : epuInstr w ∈ trapInstrs w := by
  unfold epuInstr
  split <;> (try split) <;> simp [mem_trapInstrs]

/-- A trapped first word is read as one of them, which holds that word. -/
theorem trapInstr_mem_trapInstrs {w : Word} {i : Instr} (h : trapInstr w = some i) : i ∈ trapInstrs w := by
  unfold trapInstr at h
  split at h
  · cases h
  · split at h
    · cases h
    · cases h; simp [mem_trapInstrs]
    · cases h; simp [mem_trapInstrs]
    · cases h; exact epuInstr_mem_trapInstrs w

theorem encode_of_trapInstr {w : Word} {i : Instr} (h : trapInstr w = some i) : encode i = [w] := by
  rcases mem_trapInstrs.mp (trapInstr_mem_trapInstrs h) with rfl | rfl | rfl | rfl | rfl | rfl <;> rfl

theorem wellFormed_of_trapInstr {w : Word} {i : Instr} (h : trapInstr w = some i) : i.wellFormed = true := by
  rcases mem_trapInstrs.mp (trapInstr_mem_trapInstrs h) with rfl | rfl | rfl | rfl | rfl | rfl <;> exact decide_eq_true h

/-! What is read, as the words are taken one by one. -/

/-- When `n` words of an instruction are taken and `ws` remain, an answer is a well-formed instruction of as many words as
are taken at the end. -/
def Took (n : Nat) (ws : List Word) (d : Decoded) : Prop :=
  ∀ i rest, d = .ok (i, rest) →
    i.wellFormed = true ∧ ∃ taken, ws = taken ++ rest ∧ (encode i).length = n + taken.length

section Took
variable {n : Nat} {ws : List Word} {w : Word} {r : RegCode} {c : Prop} [Decidable c] {d e : Decoded}

theorem Took.ok {i : Instr} (hwf : i.wellFormed = true) (hlen : (encode i).length = n) : Took n ws (.ok (i, ws)) := by
  rintro _ _ ⟨⟩
  exact ⟨hwf, [], rfl, hlen⟩

theorem Took.error {why : DecodeError} : Took n ws (.error why) := nofun

theorem Took.noForm : Took n ws (noForm w) := .error

theorem Took.ite (hd : c → Took n ws d) (he : ¬ c → Took n ws e) : Took n ws (if c then d else e) := by
  split
  · exact hd ‹_›
  · exact he ‹_›

/-- A form with fixed bits. -/
theorem Took.guard (hd : Took n ws d) : Took n ws (if c then d else Sys2Proof.noForm w) :=
  .ite (fun _ => hd) fun _ => .noForm

/-- A register field whose code 0000 selects another form (R103). -/
theorem Took.ifZero (hd : Took n ws d) (he : (r != 0) = true → Took n ws e) : Took n ws (if r = 0 then d else e) :=
  .ite (fun _ => hd) fun hr => he (bne_iff_ne.mpr hr)

theorem Took.okIte {i j : Instr} (hi : c → Took n ws (.ok (i, ws))) (hj : ¬ c → Took n ws (.ok (j, ws))) :
    Took n ws (.ok (if c then i else j, ws)) := by
  split
  · exact hi ‹_›
  · exact hj ‹_›

theorem Took.okIfZero {i j : Instr} (hi : Took n ws (.ok (i, ws)))
    (hj : (r != 0) = true → Took n ws (.ok (j, ws))) : Took n ws (.ok (if r = 0 then i else j, ws)) :=
  .okIte (fun _ => hi) fun hr => hj (bne_iff_ne.mpr hr)

theorem Took.nonZero (h : (r != 0) = true → Took n ws d) : Took n ws (nonZero w r d) := .ifZero .noForm h

theorem Took.ir {k : Mem → Decoded} (h : (r != 0) = true → Took n ws (k (.ir r))) : Took n ws (ir w r k) := .nonZero h

/-- One word more is taken. -/
theorem Took.cons {v : Word} (h : Took (n + 1) ws d) : Took n (v :: ws) d := by
  intro i rest hd
  obtain ⟨hwf, taken, rfl, hlen⟩ := h i rest hd
  exact ⟨hwf, v :: taken, rfl, by rw [hlen, List.length_cons]; omega⟩

theorem Took.takeWord {k : Word → List Word → Decoded} (h : ∀ v vs, Took (n + 1) vs (k v vs)) :
    Took n ws (takeWord ws k) := by
  cases ws with
  | nil => exact .error
  | cons v vs => exact .cons (h v vs)

theorem Took.immByte {k : Byte → List Word → Decoded} (h : ∀ v vs, Took (n + 1) vs (k v vs)) :
    Took n ws (immByte ws k) := .takeWord fun _ _ => .ite (fun _ => h _ _) fun _ => .error

theorem Took.immLong {k : Long → List Word → Decoded} (h : ∀ v vs, Took (n + 2) vs (k v vs)) :
    Took n ws (immLong ws k) := .takeWord fun _ _ => .takeWord fun _ _ => h _ _

theorem Took.daX {k : Mem → List Word → Decoded} (hda : ∀ v vs, Took (n + 1) vs (k (.da v) vs))
    (hx : ∀ v vs, (r != 0) = true → Took (n + 1) vs (k (.x v r) vs)) : Took n ws (daX r ws k) :=
  .takeWord fun v vs => by
    split
    · exact hda v vs
    · exact hx v vs (bne_iff_ne.mpr ‹_›)

theorem Took.blockPair {f g : RegCode → RegCode → Instr} (hf : ∀ d r vs, Took (n + 1) vs (.ok (f d r, vs)))
    (hg : ∀ d r vs, Took (n + 1) vs (.ok (g d r, vs))) : Took n ws (blockPair ws f g) :=
  .takeWord fun v vs => by
    split
    · exact hf _ _ vs
    · exact hg _ _ vs
    · exact .error

theorem Took.shiftWord {v : Word} {f g : Word → Instr} (hf : (!v.msb) = true → Took n ws (.ok (f v, ws)))
    (hg : v.msb = true → Took n ws (.ok (g v, ws))) : Took n ws (.ok (shiftWord v f g, ws)) :=
  .okIte hg fun h => hf (by simpa using h)

theorem Took.shiftByte {v : Byte} {f g : Byte → Instr} (hf : (!v.msb) = true → Took n ws (.ok (f v, ws)))
    (hg : v.msb = true → Took n ws (.ok (g v, ws))) : Took n ws (.ok (shiftByte v f g, ws)) :=
  .okIte hg fun h => hf (by simpa using h)

end Took

/-! The lines of the decoder, by their shape. `split` names the lines `h_1`, `h_2`, … in the order of the opcodes, and below an
opcode with function codes in bits 3:0 the codes' lines likewise; the comments give the opcodes. -/

section Lines
variable (w : Word) (op : BitVec 6) (n1 n0 : Nibble) (ws : List Word)

/-- Mode 00: IR and IM, and what stands where they have no place (R103, R143). -/
theorem took_decode00 : Took 1 ws (decode00 w op n1 n0 ws) := by
  unfold decode00
  split
  -- 00, 02, 04, 06, 08, 0A, 20: a byte source, IM where the register field is 0000
  case h_1 | h_3 | h_5 | h_7 | h_9 | h_11 | h_31 => exact .ifZero (.immByte fun _ _ => .ok rfl rfl) fun hr => .ok hr rfl
  -- 01, 03, 05, 07, 09, 0B, 19, 1B, 21: a word source; 22 to 27: the dynamic bit instructions have field 0000
  case h_2 | h_4 | h_6 | h_8 | h_10 | h_12 | h_24 | h_26 | h_32 | h_33 | h_34 | h_35 | h_36 | h_37 | h_38 =>
    exact .ifZero (.takeWord fun _ _ => .ok rfl rfl) fun hr => .ok hr rfl
  -- 10, 12, 14, 16, 18, 1A: a long source
  case h_15 | h_17 | h_19 | h_21 | h_23 | h_25 => exact .ifZero (.immLong fun _ _ => .ok rfl rfl) fun hr => .ok hr rfl
  -- 11, 13: PUSHL, PUSH; 15, 17: POPL, POP
  case h_16 | h_18 => exact .nonZero fun hsp => .ir fun hr => .ok (Bool.and_eq_true_iff.mpr ⟨hsp, hr⟩) rfl
  case h_20 | h_22 => exact .nonZero fun hsp => .ir fun hr => .ok (Bool.and_eq_true_iff.mpr ⟨hr, hsp⟩) rfl
  -- 30 to 35, 37: a base address, relative to the pc where the register field is 0000
  case h_47 | h_48 | h_49 | h_50 | h_51 | h_52 | h_53 =>
    exact .takeWord fun _ _ => .okIfZero (.ok rfl rfl) fun hr => .ok hr rfl
  -- 0C, 0D: one operand, and a memory operand with an immediate
  case h_13 =>
    split
    case h_2 | h_5 => exact .ir fun hr => .immByte fun _ _ => .ok hr rfl
    case h_8 => exact .noForm
    all_goals exact .ir fun hr => .ok hr rfl
  case h_14 =>
    split
    case h_2 | h_5 => exact .ir fun hr => .takeWord fun _ _ => .ok hr rfl
    case h_8 => exact .nonZero fun hr => .takeWord fun _ _ => .ok hr rfl
    case h_9 => exact .noForm
    all_goals exact .ir fun hr => .ok hr rfl
  -- 1C: LDM, whose second word names the registers, and TESTL
  case h_27 =>
    split
    case h_1 | h_3 => exact .ir fun hr => .takeWord fun _ _ => .ok hr rfl
    case h_2 => exact .ir fun hr => .ok hr rfl
    case h_4 => exact .noForm
  -- 39: LDPS
  case h_54 => exact .guard (.ir fun hr => .ok hr rfl)
  -- 3A, 3B: input and output, of a block or at a port word
  case h_55 | h_56 =>
    split
    case h_5 | h_6 | h_7 | h_8 => exact .takeWord fun _ _ => .ok rfl rfl
    case h_13 => exact .noForm
    all_goals exact .nonZero fun hr => .blockPair (fun _ _ _ => .ok hr rfl) fun _ _ _ => .ok hr rfl
  -- 3C to 3F: input and output at a port register
  case h_57 | h_58 | h_59 | h_60 => exact .nonZero fun hr => .ok hr rfl
  case h_61 => exact .noForm
  -- 1D to 1F, 28 to 2F: IR alone
  all_goals exact .ir fun hr => .ok hr rfl

/-- Mode 01: DA and X, the BX forms and the control group (R103, R143). -/
theorem took_decode01 : Took 1 ws (decode01 w op n1 n0 ws) := by
  unfold decode01
  split
  -- 11, 13: PUSHL, PUSH; 15, 17: POPL, POP
  case h_16 | h_18 =>
    exact .nonZero fun hsp => .daX (fun _ _ => .ok (Bool.and_eq_true_iff.mpr ⟨hsp, rfl⟩) rfl)
      fun _ _ hr => .ok (Bool.and_eq_true_iff.mpr ⟨hsp, hr⟩) rfl
  case h_20 | h_22 =>
    exact .nonZero fun hsp => .daX (fun _ _ => .ok (Bool.and_eq_true_iff.mpr ⟨rfl, hsp⟩) rfl)
      fun _ _ hr => .ok (Bool.and_eq_true_iff.mpr ⟨hr, hsp⟩) rfl
  -- 30 to 35, 37: a base register and an index register
  case h_47 | h_48 | h_49 | h_50 | h_51 | h_52 | h_54 => exact .nonZero fun hr => .takeWord fun _ _ => .ok hr rfl
  -- 36: LDA
  case h_53 =>
    refine .takeWord fun v vs => ?_
    split
    · exact .ok rfl rfl
    · exact .ok (bne_iff_ne.mpr ‹_›) rfl
  -- 0C, 0D: one operand, and a memory operand with an immediate
  case h_13 =>
    split
    case h_2 | h_5 =>
      exact .daX (fun _ _ => .immByte fun _ _ => .ok rfl rfl) fun _ _ hr => .immByte fun _ _ => .ok hr rfl
    case h_8 => exact .noForm
    all_goals exact .daX (fun _ _ => .ok rfl rfl) fun _ _ hr => .ok hr rfl
  case h_14 =>
    split
    case h_2 | h_5 =>
      exact .daX (fun _ _ => .takeWord fun _ _ => .ok rfl rfl) fun _ _ hr => .takeWord fun _ _ => .ok hr rfl
    case h_8 => exact .noForm
    all_goals exact .daX (fun _ _ => .ok rfl rfl) fun _ _ hr => .ok hr rfl
  -- 1C: LDM, whose second word stands before the address word, and TESTL
  case h_27 =>
    split
    case h_1 | h_3 => exact .takeWord fun _ _ => .daX (fun _ _ => .ok rfl rfl) fun _ _ hr => .ok hr rfl
    case h_2 => exact .daX (fun _ _ => .ok rfl rfl) fun _ _ hr => .ok hr rfl
    case h_4 => exact .noForm
  -- 39: LDPS
  case h_55 => exact .guard (.daX (fun _ _ => .ok rfl rfl) fun _ _ hr => .ok hr rfl)
  -- 3A: HALT
  case h_56 => exact .guard (.ok rfl rfl)
  -- 3B: IRET and the multi-micro instructions
  case h_57 =>
    split
    case h_5 => exact .ok rfl rfl
    case h_6 => exact .noForm
    all_goals exact .guard (.ok rfl rfl)
  -- 3C: DI, EI
  case h_58 =>
    refine .guard ?_
    split
    case h_3 => exact .noForm
    all_goals exact .ok rfl rfl
  -- 3D: LDCTL
  case h_59 =>
    split
    case h_9 => exact .noForm
    all_goals exact .ok rfl rfl
  -- 3F: SC
  case h_60 => exact .ok rfl rfl
  case h_61 => exact .noForm
  -- DA and X alone
  all_goals exact .daX (fun _ _ => .ok rfl rfl) fun _ _ hr => .ok hr rfl

/-- Mode 10: register operands, rotates and shifts, the block instructions (R103, R143). -/
theorem took_decode10 : Took 1 ws (decode10 w op n1 n0 ws) := by
  unfold decode10
  split
  -- 0C, 0D: one operand, the flags, NOP
  case h_13 =>
    split
    case h_8 => exact .noForm
    all_goals exact .ok rfl rfl
  case h_14 =>
    split
    case h_8 => exact .guard (.ok rfl rfl)
    case h_10 => exact .noForm
    all_goals exact .ok rfl rfl
  -- 11, 13: PUSHL, PUSH; 15, 17: POPL, POP
  case h_16 | h_18 => exact .nonZero fun hsp => .ok (Bool.and_eq_true_iff.mpr ⟨hsp, rfl⟩) rfl
  case h_20 | h_22 => exact .nonZero fun hsp => .ok (Bool.and_eq_true_iff.mpr ⟨rfl, hsp⟩) rfl
  -- 1C: TESTL; 31: sign extension
  case h_27 =>
    split
    case h_1 => exact .ok rfl rfl
    case h_2 => exact .noForm
  case h_46 =>
    split
    case h_4 => exact .noForm
    all_goals exact .ok rfl rfl
  -- 1E: RET
  case h_28 => exact .guard (.ok rfl rfl)
  -- 32, 33: rotates, static shifts and dynamic shifts
  case h_47 =>
    split
    case h_2 | h_8 => exact .takeWord fun _ _ => .shiftByte (fun hc => .ok hc rfl) fun hc => .ok hc rfl
    case h_4 | h_10 => exact .takeWord fun _ _ => .ok rfl rfl
    case h_13 => exact .noForm
    all_goals exact .ok rfl rfl
  case h_48 =>
    split
    case h_2 | h_6 | h_10 | h_14 => exact .takeWord fun _ _ => .shiftWord (fun hc => .ok hc rfl) fun hc => .ok hc rfl
    case h_4 | h_8 | h_12 | h_16 => exact .takeWord fun _ _ => .ok rfl rfl
    case h_17 => exact .noForm
    all_goals exact .ok rfl rfl
  -- 38: translate
  case h_53 =>
    split
    case h_9 => exact .noForm
    all_goals exact .nonZero fun hr => .takeWord fun _ _ => .ok hr rfl
  -- 3A, 3B: block compare and block load
  case h_54 | h_55 =>
    split
    case h_2 | h_7 => exact .nonZero fun hr => .blockPair (fun _ _ _ => .ok hr rfl) fun _ _ _ => .ok hr rfl
    case h_11 => exact .noForm
    all_goals exact .nonZero fun hr => .takeWord fun _ _ => .ok hr rfl
  case h_59 => exact .noForm
  -- registers alone
  all_goals exact .ok rfl rfl

/-- The compact formats (R104). -/
theorem took_decode11 (kind : BitVec 2) (n2 : Nibble) : Took 1 ws (decode11 kind n2 n1 n0 ws) := by
  unfold decode11
  split
  case h_4 => exact .okIte (fun _ => .ok rfl rfl) fun _ => .ok rfl rfl
  all_goals exact .ok rfl rfl

end Lines

/-- What the decoder answers is well formed and took its words (R101, R144). -/
theorem took_decode (ws : List Word) : Took 0 ws (decode ws) := by
  unfold decode
  split
  case h_1 => exact .error
  case h_2 w ws =>
    apply Took.cons
    split
    case h_1 i h => exact .ok (wellFormed_of_trapInstr h) (congrArg List.length (encode_of_trapInstr h))
    case h_2 =>
      split
      · exact took_decode00 _ _ _ _ _
      · exact took_decode01 _ _ _ _ _
      · exact took_decode10 _ _ _ _ _
      · exact took_decode11 _ _ _ _ _

/-! The trapped list and the trap (R140, R621, 60_exceptions.md R705). -/

/-- A word is in the list when it fits the mask and the pattern of a row. -/
theorem exists_trapKind_iff (w : Word) : (∃ k, trapKind w = some k) ↔
    ∃ e ∈ (trappedListA ++ trappedListB).map fun row => (row.mask, row.pattern), w &&& e.1 = e.2 := by
  rw [← Option.isSome_iff_exists, trapKind, Option.isSome_map, List.find?_isSome]
  simp only [List.mem_map, beq_iff_eq, exists_exists_and_eq_and]

theorem extract_upper (w : Word) : w.extractLsb' 8 8 = modeOf w ++ opOf w := by
  rw [modeOf, opOf, BitVec.extractLsb'_append_extractLsb'_eq_extractLsb' (by rfl)]

/-- A word of the list that is not SC is read as a trapped instruction. -/
theorem exists_trapInstr {w : Word} {k : TrapKind} (hk : trapKind w = some k) (hsc : w.extractLsb' 8 8 ≠ 0x7F#8) :
    ∃ i, trapInstr w = some i := by
  have hne : ¬(modeOf w = 0b01#2 ∧ opOf w = 0x3F#6) := by
    rintro ⟨hmode, hop⟩
    exact hsc (by rw [extract_upper, hmode, hop]; rfl)
  rw [trapInstr, if_neg hne, hk]
  cases k <;> exact ⟨_, rfl⟩

open Machine in
/-- Every trapped instruction means the trap with its word as the identifier. -/
theorem exec_of_mem_trapInstrs {w : Word} {i : Instr} (h : i ∈ trapInstrs w) (s : State) :
    exec i s = finish (s.unimplementedTrap w) := by
  rcases mem_trapInstrs.mp h with rfl | rfl | rfl | rfl | rfl | rfl <;> rfl

end Sys2Proof

section
open Sys2Proof Sys2Proof.Machine

/-- Settles O1, by `decode_encode`: the shapes of operands, each read back from the words of its encoder. -/
theorem decodeReadsEncoded : Obligations.DecodeReadsEncoded := fun _ rest hi => decode_encode hi rest

/-- Settles O2: the words are counted as the decoder takes them (`took_decode`), and an instruction has one to three. -/
theorem decodedInstructionIsWellFormed : Obligations.DecodedInstructionIsWellFormed := by
  intro ws i rest h
  obtain ⟨hwf, taken, rfl, hlen⟩ := took_decode ws i rest h
  rw [Nat.zero_add] at hlen
  obtain ⟨hone, hthree⟩ := encode_instructionLength i
  refine ⟨hwf, ?_, ?_, hone, hthree⟩
  · rw [hlen, List.drop_left]
  · rw [hlen, List.length_append]
    exact Nat.le_add_right _ _

/-- Settles O3: the list row by row (`exists_trapKind_iff`), and what its words but SC are read as. -/
theorem trappedWordsTrap : Obligations.TrappedWordsTrap := by
  refine ⟨exists_trapKind_iff, fun w k rest hk hsc => ?_⟩
  obtain ⟨i, hi⟩ := exists_trapInstr hk hsc
  exact ⟨i, decode_of_trapInstr hi rest, exec_of_mem_trapInstrs (trapInstr_mem_trapInstrs hi)⟩

/-- Settles O4, by running the decoder on each sample. -/
theorem sampleWordsDecode : Obligations.SampleWordsDecode := by
  unfold Obligations.SampleWordsDecode
  and_intros <;> rfl
end

/-! Division (40_arithmetic.md R225 to R229): what the helper answers in each of its four cases. -/

namespace Sys2Proof.Machine

open Sys2Proof

theorem fitsSigned_iff {n : Nat} {x : Int} :
    fitsSigned n x = true ↔ -(2 ^ (n - 1)) ≤ x ∧ x ≤ 2 ^ (n - 1) - 1 := by
  simp [fitsSigned]

theorem fitsSigned_eq_false_iff {n : Nat} {x : Int} :
    fitsSigned n x = false ↔ x < -(2 ^ (n - 1)) ∨ 2 ^ (n - 1) - 1 < x := by
  rw [← Bool.not_eq_true, fitsSigned_iff]
  omega

section Division
variable {n : Nat} {x y q r : Int}

/-- For a divisor that is not zero the quotient is truncated and the remainder has the dividend's sign (D11); the width
decides the case. -/
theorem divideInt_of_ne_zero (hy : y ≠ 0) : divideInt n x y =
    if fitsSigned n (x.tdiv y) then .fits (x.tdiv y) (x.tmod y)
    else if |x.tdiv y| ≤ 2 ^ n - 1 then .wide (x.tdiv y) (x.tmod y) else .tooLarge := by
  simp only [abs_le]
  exact if_neg hy

theorem divideInt_eq_byZero_iff : divideInt n x y = .byZero ↔ y = 0 := by
  refine ⟨fun h => ?_, fun h => if_pos h⟩
  by_contra hy
  rw [divideInt_of_ne_zero hy] at h
  split at h
  · cases h
  · split at h <;> cases h

theorem ne_zero_of_divideInt {c : Division} (h : divideInt n x y = c) (hc : c ≠ .byZero) : y ≠ 0 :=
  fun hy => hc (h.symm.trans (divideInt_eq_byZero_iff.mpr hy))

theorem divideInt_eq_fits (h : divideInt n x y = .fits q r) :
    y ≠ 0 ∧ q = x.tdiv y ∧ r = x.tmod y ∧ fitsSigned n q = true := by
  have hy := ne_zero_of_divideInt h nofun
  rw [divideInt_of_ne_zero hy] at h
  split at h
  next hfits => cases h; exact ⟨hy, rfl, rfl, hfits⟩
  next => split at h <;> cases h

theorem divideInt_eq_wide (h : divideInt n x y = .wide q r) :
    y ≠ 0 ∧ q = x.tdiv y ∧ r = x.tmod y ∧ fitsSigned n q = false ∧ |q| ≤ 2 ^ n - 1 := by
  have hy := ne_zero_of_divideInt h nofun
  rw [divideInt_of_ne_zero hy] at h
  split at h
  · cases h
  next hfits =>
    split at h
    next hwide => cases h; exact ⟨hy, rfl, rfl, Bool.eq_false_of_not_eq_true hfits, hwide⟩
    next => cases h

theorem divideInt_eq_tooLarge (h : divideInt n x y = .tooLarge) : 2 ^ n - 1 < |x.tdiv y| := by
  have hy := ne_zero_of_divideInt h nofun
  rw [divideInt_of_ne_zero hy] at h
  split at h
  · cases h
  · split at h
    · cases h
    next hwide => exact not_le.mp hwide

theorem abs_tmod_lt (x : Int) (hy : y ≠ 0) : |x.tmod y| < |y| := by
  rw [Int.abs_eq_natAbs, Int.abs_eq_natAbs, Int.natAbs_tmod]
  exact_mod_cast Nat.mod_lt _ (Int.natAbs_pos.mpr hy)

/-- The division law: an exact division whose remainder is smaller than the divisor and has the dividend's sign. -/
theorem tdiv_tmod_law (x : Int) (hy : y ≠ 0) : x = x.tdiv y * y + x.tmod y ∧ |x.tmod y| < |y| ∧
    (0 ≤ x → 0 ≤ x.tmod y) ∧ (x ≤ 0 → x.tmod y ≤ 0) := by
  refine ⟨(Int.tdiv_mul_add_tmod x y).symm, abs_tmod_lt x hy, Int.tmod_nonneg y, fun hx => ?_⟩
  have h := Int.tmod_nonneg y (Int.neg_nonneg_of_nonpos hx)
  rw [Int.neg_tmod] at h
  exact Int.nonpos_of_neg_nonneg h

end Division

end Sys2Proof.Machine

section
open Sys2Proof Sys2Proof.Machine

/-- Settles O27, by what `divideInt` answers in each case and the law of truncated division. -/
theorem divisionHelper : Obligations.DivisionHelper := by
  intro n x y _
  refine ⟨divideInt_eq_byZero_iff, ?law, fun q r h => ?fits, fun q r h => ?wide, divideInt_eq_tooLarge⟩
  case law =>
    rintro q r (h | h)
    · obtain ⟨hy, rfl, rfl, -⟩ := divideInt_eq_fits h
      exact tdiv_tmod_law x hy
    · obtain ⟨hy, rfl, rfl, -, -⟩ := divideInt_eq_wide h
      exact tdiv_tmod_law x hy
  case fits =>
    obtain ⟨-, -, -, hfits⟩ := divideInt_eq_fits h
    exact fitsSigned_iff.mp hfits
  case wide =>
    obtain ⟨-, -, -, hfits, hwide⟩ := divideInt_eq_wide h
    exact ⟨fitsSigned_eq_false_iff.mp hfits, hwide⟩
end

/-! Arithmetic and logic by the shapes of Operands.lean: an instruction of a shape completes with the value and the flags
of its operation. -/

namespace Sys2Proof.Machine

open Sys2Proof

section Shapes
variable {i : Instr} {s : State} {f : FlagWrite}

theorem Completes.binaryWord {op : Word → Word → Word × FlagWrite} {d : RegCode} {src : Src 16} {v x : Word}
    (hi : exec i s = finish (binaryWord op d src s)) (hv : s.srcWord src = .ok v) (hop : op (s.reg d) v = (x, f)) :
    Completes i s (WordRegister d x f s) :=
  ⟨_, by rw [hi, binaryWord_ok hv, finish_ok], by rw [hop]; exact wordRegister_set s d x f⟩

theorem Completes.binaryByte {op : Byte → Byte → Byte × FlagWrite} {d : RegCode} {src : Src 8} {v x : Byte}
    (hi : exec i s = finish (binaryByte op d src s)) (hv : s.srcByte src = .ok v)
    (hop : op (s.byteReg d) v = (x, f)) : Completes i s (ByteRegister d x f s) :=
  ⟨_, by rw [hi, binaryByte_ok hv, finish_ok], by rw [hop]; exact byteRegister_set s d x f⟩

theorem Completes.binaryLong {op : Long → Long → Long × FlagWrite} {d : RegCode} {src : Src 32} {v x : Long}
    (hi : exec i s = finish (binaryLong op d src s)) (hd : pairCode d = true) (hv : s.srcLong src = .ok v)
    (hop : op (s.reg d ++ s.reg (d + 1)) v = (x, f)) : Completes i s (LongRegister d x f s) :=
  ⟨_, by rw [hi, binaryLong_ok hd hv, finish_ok], by rw [hop]; exact longRegister_set s d x f⟩

/-- The compares and tests write their flags into the state they started from. -/
theorem Completes.flagsOnly {a : Attempt State} (hi : exec i s = finish a) (ha : a = .ok (s.setFlags f)) :
    Completes i s (OnlyChanged [] [] f s) :=
  ⟨_, by rw [hi, ha, finish_ok], OnlyChanged.setFlags s f⟩

theorem Completes.modifyWord {op : Word → Word × FlagWrite} {dst : Dst} {a x : Word}
    (hi : exec i s = finish (modifyWord op dst s)) (ha : s.dstWord dst = .ok a) (hop : op a = (x, f)) :
    Completes i s (WordOperand dst x f s) := by
  obtain ⟨t, ht, hpost⟩ := modifyWord_ok (op := op) ha
  rw [hop] at hpost
  exact ⟨t, by rw [hi, ht, finish_ok], hpost⟩

theorem Completes.modifyByte {op : Byte → Byte × FlagWrite} {dst : Dst} {a x : Byte}
    (hi : exec i s = finish (modifyByte op dst s)) (ha : s.dstByte dst = .ok a) (hop : op a = (x, f)) :
    Completes i s (ByteOperand dst x f s) := by
  obtain ⟨t, ht, hpost⟩ := modifyByte_ok (op := op) ha
  rw [hop] at hpost
  exact ⟨t, by rw [hi, ht, finish_ok], hpost⟩

/-- CLR and CLRB write without a flag. -/
theorem Completes.setDstWord {dst : Dst} {a x : Word} (hi : exec i s = finish (s.setDstWord dst x))
    (ha : s.dstWord dst = .ok a) : Completes i s (WordOperand dst x {} s) := by
  obtain ⟨t, ht, hpost⟩ := setDstWord_ok x ha
  exact ⟨t, by rw [hi, ht, finish_ok], hpost {}⟩

theorem Completes.setDstByte {dst : Dst} {x : Byte} (hi : exec i s = finish (s.setDstByte dst x)) :
    Completes i s (ByteOperand dst x {} s) := by
  obtain ⟨t, ht, hpost⟩ := setDstByte_ok s dst x
  exact ⟨t, by rw [hi, ht, finish_ok], hpost {}⟩

end Shapes

/-! The operations as the statements write them: without a carry in, the value of the helpers is the sum or difference of
bit vectors. -/

section Operations
variable {n : Nat} (a b : BitVec n)

theorem addOp_false : addOp false a b = (a + b, (addWith a b false).czsv) := by rw [addOp, addWith_value]

theorem subOp_false : subOp false a b = (a - b, (subWith a b false).czsv) := by rw [subOp, subWith_value]

theorem addByteOp_false (a b : Byte) : addByteOp false a b = (a + b, (addWith a b false).byteAdd) := by
  rw [addByteOp, addWith_value]

theorem subByteOp_false (a b : Byte) : subByteOp false a b = (a - b, (subWith a b false).byteSub) := by
  rw [subByteOp, subWith_value]

theorem incOp_eq (k : Nibble) :
    incOp k a = (a + BitVec.ofNat n (k.toNat + 1), (addWith a (BitVec.ofNat n (k.toNat + 1)) false).zsv) := by
  rw [incOp, addWith_value]

theorem decOp_eq (k : Nibble) :
    decOp k a = (a - BitVec.ofNat n (k.toNat + 1), (subWith a (BitVec.ofNat n (k.toNat + 1)) false).zsv) := by
  rw [decOp, subWith_value]

/-- The borrow of `0 - a` is 1 unless `a` is 0 (D24). -/
theorem negOp_borrow : (subWith 0#n a false).c = decide (a ≠ 0) := by
  refine decide_eq_decide.mpr ?_
  rw [ne_eq, ← BitVec.toNat_inj, BitVec.toNat_ofNat, Nat.zero_mod]
  simp only [BitVec.ofNat_eq_ofNat, BitVec.toNat_ofNat, Nat.zero_mod, Bool.toNat_false]
  omega

/-- `0 - a` overflows when both `a` and its negation are negative: for the most negative number only. -/
theorem negOp_overflow (hn : 0 < n) : (subWith 0#n a false).v = (a == BitVec.intMin n) := by
  rw [subWith_v, subWith_value, BitVec.zero_sub, BitVec.msb_zero, BitVec.msb_neg]
  cases hm : a.msb with
  | false =>
    have hmin : a ≠ BitVec.intMin n := by rintro rfl; simp [BitVec.msb_intMin, hn] at hm
    simp [hmin]
  | true =>
    have hzero : (a != 0#n) = true := bne_iff_ne.mpr (by rintro rfl; simp at hm)
    by_cases hmin : a = BitVec.intMin n
    · simp [hmin]
    · simp [hzero, bne_iff_ne.mpr hmin, beq_false_of_ne hmin]

theorem negOp_eq (hn : 0 < n) : negOp a =
    (-a, { c := decide (a ≠ 0), z := a == 0, s := (-a).msb, v := a == BitVec.intMin n }) := by
  have hvalue : (subWith 0#n a false).value = -a := by rw [subWith_value, BitVec.zero_sub]
  have hzero : ((subWith 0#n a false).value == 0) = (a == 0) := by
    rw [hvalue, Bool.eq_iff_iff, beq_iff_eq, beq_iff_eq]
    exact neg_eq_zero
  rw [negOp, subOp, hvalue, ← negOp_borrow, ← negOp_overflow a hn, ← hzero, ← hvalue]
  rfl

/-- V of a byte result is set when the number of ones is even. -/
theorem logicFlagsByte_eq (r : Byte) : logicFlagsByte r =
    { z := r == 0, s := r.msb, v := decide ((List.range 8).countP (fun k => r.getLsbD k) % 2 = 0) } := by
  rw [logicFlagsByte, parityEven_eq_count]

theorem logicByteOp_eq (op : Byte → Byte → Byte) (a b : Byte) : logicByteOp op a b = (op a b,
    { z := op a b == 0, s := (op a b).msb,
      v := decide ((List.range 8).countP (fun k => (op a b).getLsbD k) % 2 = 0) }) := by
  rw [logicByteOp, logicFlagsByte_eq]

end Operations

/-! The bit number of a dynamic test is the source register modulo the width of the operand. -/

theorem dynamicBit_eq (s : State) (r : RegCode) : dynamicBit s r = (s.reg r).toNat % 16 := by
  rw [dynamicBit, BitVec.extractLsb'_toNat, Nat.shiftRight_zero]

theorem dynamicBitByte_eq (s : State) (r : RegCode) : dynamicBitByte s r = (s.reg r).toNat % 8 := by
  rw [dynamicBitByte, BitVec.extractLsb'_toNat, Nat.shiftRight_zero]

end Sys2Proof.Machine

section
open Sys2Proof Sys2Proof.Machine

/-- Settles O30: each instruction is its operation on the operands, by the shapes of Operands.lean. -/
theorem wordAndLongArithmeticAndLogic : Obligations.WordAndLongArithmeticAndLogic := by
  intro s d
  refine ⟨fun r a => ⟨?adc, ?sbc⟩, fun src v hv => ⟨fun a => ⟨?add, ?sub⟩, ?and, ?or, ?xor⟩,
    fun src v a hd hv => ⟨?addl, ?subl⟩⟩
  case adc => rintro rfl; exact .binaryWord (op := addOp s.carry) (src := .reg r) rfl rfl rfl
  case sbc => rintro rfl; exact .binaryWord (op := subOp s.carry) (src := .reg r) rfl rfl rfl
  case add => rintro rfl; exact .binaryWord rfl hv (addOp_false _ _)
  case sub => rintro rfl; exact .binaryWord rfl hv (subOp_false _ _)
  case and => exact .binaryWord rfl hv rfl
  case or => exact .binaryWord rfl hv rfl
  case xor => exact .binaryWord rfl hv rfl
  case addl => rintro rfl; exact .binaryLong rfl hd hv (addOp_false _ _)
  case subl => rintro rfl; exact .binaryLong rfl hd hv (subOp_false _ _)

/-- Settles O31, as the word forms, with the flags of a byte. -/
theorem byteArithmeticAndLogic : Obligations.ByteArithmeticAndLogic := by
  intro s d
  refine ⟨fun r a => ⟨?adcb, ?sbcb⟩, fun src v hv => ⟨fun a => ⟨?addb, ?subb⟩, ?logic⟩⟩
  case adcb => rintro rfl; exact .binaryByte (op := addByteOp s.carry) (src := .reg r) rfl rfl rfl
  case sbcb => rintro rfl; exact .binaryByte (op := subByteOp s.carry) (src := .reg r) rfl rfl rfl
  case addb => rintro rfl; exact .binaryByte rfl hv (addByteOp_false _ _)
  case subb => rintro rfl; exact .binaryByte rfl hv (subByteOp_false _ _)
  case logic =>
    rintro x _ rfl
    refine ⟨?andb, ?orb, ?xorb⟩
    case andb => rintro rfl; exact .binaryByte rfl hv (logicByteOp_eq _ _ _)
    case orb => rintro rfl; exact .binaryByte rfl hv (logicByteOp_eq _ _ _)
    case xorb => rintro rfl; exact .binaryByte rfl hv (logicByteOp_eq _ _ _)

/-- Settles O32: a compare or test reads its operands and writes the flags of its operation. -/
theorem comparesAndTestsWriteFlagsOnly : Obligations.ComparesAndTestsWriteFlagsOnly := by
  intro s
  refine ⟨fun d src v x hv hx => ?cp, fun d src v x hv hx => ?cpb, fun d src v x hd hv hx => ?cpl,
    fun dst a ha => ?word, fun dst a ha => ?byte, fun dst a ha => ?testl, fun d r => ⟨?bitDyn, ?bitbDyn⟩⟩
  case cp => subst hx; exact .flagsOnly rfl (compareWord_ok hv)
  case cpb => subst hx; exact .flagsOnly rfl (compareByte_ok hv)
  case cpl => subst hx; exact .flagsOnly rfl (compareLong_ok hd hv)
  case word =>
    refine ⟨?cpMem, .flagsOnly rfl (examineWord_ok ha), fun b => .flagsOnly rfl (examineWord_ok ha)⟩
    rintro m v _ rfl rfl
    exact .flagsOnly rfl (examineWord_ok (op := (compareOp · v)) ha)
  case byte =>
    refine ⟨?cpbMem, ?testb, fun b => .flagsOnly rfl (examineByte_ok ha)⟩
    case cpbMem =>
      rintro m v _ rfl rfl
      exact .flagsOnly rfl (examineByte_ok (op := (compareOp · v)) ha)
    case testb =>
      rw [← logicFlagsByte_eq]
      exact .flagsOnly rfl (examineByte_ok ha)
  case testl => exact .flagsOnly rfl (examineLong_ok ha)
  case bitDyn =>
    rw [← dynamicBit_eq]
    exact .flagsOnly rfl (examineWord_ok (op := bitTest (dynamicBit s r)) (dst := .reg d) rfl)
  case bitbDyn =>
    rw [← dynamicBitByte_eq]
    exact .flagsOnly rfl (examineByte_ok (op := bitTest (dynamicBitByte s r)) (dst := .reg d) rfl)

/-- Settles O33: each is a read-modify-write of its operation, and CLR a write of zero. -/
theorem wordReadModifyWrite : Obligations.WordReadModifyWrite := by
  intro s dst a ha
  refine ⟨fun n x => ⟨?inc, ?dec⟩, ?neg, ?com, ?tset, ?clr⟩
  case inc => rintro rfl; exact .modifyWord rfl ha (incOp_eq a n)
  case dec => rintro rfl; exact .modifyWord rfl ha (decOp_eq a n)
  case neg => exact .modifyWord rfl ha (negOp_eq a (by decide))
  case com => exact .modifyWord rfl ha (by rw [logicFlags, BitVec.msb_not]; rfl)
  case tset => exact .modifyWord rfl ha rfl
  case clr => exact .setDstWord rfl ha

/-- Settles O34, as the word forms, with the flags of a byte. -/
theorem byteReadModifyWrite : Obligations.ByteReadModifyWrite := by
  intro s dst a ha
  refine ⟨fun n x => ⟨?incb, ?decb⟩, ?negb, ?comb, ?tsetb, ?clrb⟩
  case incb => rintro rfl; exact .modifyByte rfl ha (incOp_eq a n)
  case decb => rintro rfl; exact .modifyByte rfl ha (decOp_eq a n)
  case negb => exact .modifyByte rfl ha (negOp_eq a (by decide))
  case comb => exact .modifyByte rfl ha (by rw [logicFlagsByte_eq, BitVec.msb_not]; rfl)
  case tsetb => exact .modifyByte rfl ha rfl
  case clrb => exact .setDstByte rfl
end

/-! Multiplication, division and sign extension: the registers of a product, a quotient or an extended value. -/

namespace Sys2Proof.Machine

open Sys2Proof

/-! A source register outside the destination passes the check of D6. -/

theorem overlapsPair_eq_false {d : RegCode} {src : Src 16} (h0 : src ≠ .reg d) (h1 : src ≠ .reg (d + 1)) :
    overlapsPair d src = false := by
  cases src with
  | reg r => simpa [overlapsPair] using And.intro h0 h1
  | imm _ => rfl
  | mem _ => rfl

theorem overlapsQuad_eq_false {d : RegCode} {src : Src 32} (h0 : src ≠ .reg d) (h2 : src ≠ .reg (d + 2)) :
    overlapsQuad d src = false := by
  cases src with
  | reg r => simpa [overlapsQuad] using And.intro h0 h2
  | imm _ => rfl
  | mem _ => rfl

/-! The product of two n-bit numbers is a 2n-bit number, whose flags are those of R237. -/

theorem exists_toInt_eq_mul {n m : Nat} (hn : 0 < n) (hm : m = n * 2) (x y : BitVec n) :
    ∃ p : BitVec m, p.toInt = x.toInt * y.toInt := by
  subst hm
  have hge := @BitVec.le_toInt_mul_toInt n x y
  have hle := @BitVec.toInt_mul_toInt_le n x y
  have hpow : (2 : Int) ^ (n * 2 - 2) < 2 ^ (n * 2 - 1) := pow_lt_pow_right₀ (by decide) (by omega)
  exact ⟨_, BitVec.toInt_ofInt_eq_self (by omega) (by omega) (by omega)⟩

theorem beq_zero_eq_toInt {n : Nat} (x : BitVec n) : (x == 0) = decide (x.toInt = 0) := by
  rw [Bool.eq_iff_iff, beq_iff_eq, decide_eq_true_iff, ← BitVec.toInt_inj, BitVec.ofNat_eq_ofNat, BitVec.toInt_zero]

theorem multFlags_toInt {n m : Nat} (p : BitVec m) : multFlags n p.toInt =
    { c := decide (p.toInt < -(2 ^ (n - 1)) ∨ 2 ^ (n - 1) ≤ p.toInt), z := p == 0, s := p.msb, v := false } := by
  have hcarry : (!fitsSigned n p.toInt) = decide (p.toInt < -(2 ^ (n - 1)) ∨ 2 ^ (n - 1) ≤ p.toInt) := by
    rw [Bool.eq_iff_iff, Bool.not_eq_true', fitsSigned_eq_false_iff, decide_eq_true_iff]
    omega
  rw [multFlags, hcarry, beq_zero_eq_toInt, BitVec.msb_eq_toInt]

/-! What the four instructions complete with when their operands are legal and apart. -/

section
variable {s : State} {d : RegCode}

theorem completes_mult {src : Src 16} {v : Word} {p : Long} (hd : pairCode d = true) (h0 : src ≠ .reg d)
    (h1 : src ≠ .reg (d + 1)) (hv : s.srcWord src = .ok v) (hp : p.toInt = (s.reg (d + 1)).toInt * v.toInt) :
    Completes (.mult d src) s (LongRegister d p (multFlags 16 p.toInt) s) := by
  refine ⟨_, ?_, longRegister_set s d _ _⟩
  change execMult d src s = _
  simp only [execMult, State.pair_legal hd, requireApart_ok (overlapsPair_eq_false h0 h1), hv, ← hp,
    BitVec.ofInt_toInt, State.setPair_legal hd, bind, Except.bind, finish_ok, lowWord_append]

theorem completes_multl {src : Src 32} {v : Long} {p : Quad} (hd : quadCode d = true) (h0 : src ≠ .reg d)
    (h2 : src ≠ .reg (d + 2)) (hv : s.srcLong src = .ok v)
    (hp : p.toInt = (s.reg (d + 2) ++ s.reg (d + 3)).toInt * v.toInt) :
    Completes (.multl d src) s (QuadRegister d p (multFlags 32 p.toInt) s) := by
  refine ⟨_, ?_, quadRegister_set s d _ _⟩
  change execMultl d src s = _
  simp only [execMultl, State.quad_legal hd, requireApart_ok (overlapsQuad_eq_false h0 h2), hv, ← hp,
    BitVec.ofInt_toInt, State.setQuad_legal hd, bind, Except.bind, finish_ok, BitVec.extractLsb'_append_eq_right]

theorem completes_div {src : Src 16} {v : Word} {x : Long} {c : Division} (hd : pairCode d = true)
    (h0 : src ≠ .reg d) (h1 : src ≠ .reg (d + 1)) (hv : s.srcWord src = .ok v) (hx : x = s.reg d ++ s.reg (d + 1))
    (hc : divideInt 16 x.toInt v.toInt = c) :
    Completes (.div d src) s (LongRegister d (divResult s.clock x v c) c.flags s) := by
  subst hx
  refine ⟨_, ?_, longRegister_set s d _ _⟩
  change execDiv d src s = _
  simp only [execDiv, State.pair_legal hd, requireApart_ok (overlapsPair_eq_false h0 h1), hv, hc,
    State.setPair_legal hd, bind, Except.bind, finish_ok]

theorem completes_divl {src : Src 32} {v : Long} {x : Quad} {c : Division} (hd : quadCode d = true)
    (h0 : src ≠ .reg d) (h2 : src ≠ .reg (d + 2)) (hv : s.srcLong src = .ok v)
    (hx : x = s.reg d ++ s.reg (d + 1) ++ (s.reg (d + 2) ++ s.reg (d + 3)))
    (hc : divideInt 32 x.toInt v.toInt = c) :
    Completes (.divl d src) s (QuadRegister d (divlResult s.clock x v c) c.flags s) := by
  subst hx
  refine ⟨_, ?_, quadRegister_set s d _ _⟩
  change execDivl d src s = _
  simp only [execDivl, State.quad_legal hd, requireApart_ok (overlapsQuad_eq_false h0 h2), hv, hc,
    State.setQuad_legal hd, bind, Except.bind, finish_ok]

end

/-! Sign extension to twice the width fills the upper half with copies of the sign and keeps the lower half. -/

theorem signExtend_double {n : Nat} (x : BitVec n) :
    x.signExtend (n + n) = (if x.msb then BitVec.allOnes n else 0#n) ++ x := by
  rw [BitVec.signExtend_eq_append_of_le (Nat.le_add_left n n)]
  apply BitVec.eq_of_toNat_eq
  rw [BitVec.toNat_cast, BitVec.toNat_append, BitVec.toNat_append, Nat.add_sub_cancel]

/-- The sign of the lower half of a value is a bit of the whole. -/
theorem getLsbD_append_sign {m n : Nat} (x : BitVec m) (y : BitVec n) (hn : 0 < n) :
    (x ++ y).getLsbD (n - 1) = y.msb := by
  rw [BitVec.getLsbD_append, if_pos (Nat.sub_one_lt_of_lt hn), BitVec.msb_eq_getLsbD_last]

/-- A write of the high register of a pair leaves the low one. -/
theorem longRegister_setReg_high (s : State) (d : RegCode) (v : Word) :
    LongRegister d (v ++ s.reg (d + 1)) {} s (s.setReg d v) := by
  refine ⟨?_, ?_, (OnlyChanged.setReg s d v).mono (by simp) (by simp)⟩
  · rw [State.reg_setReg_same, highWord_append]
  · rw [State.reg_setReg_other s v (succ_ne_self d), lowWord_append]

/-- A write of the high pair of a quadruple leaves the low one. -/
theorem quadRegister_setPairValue_high (s : State) (d : RegCode) (v : Long) :
    QuadRegister d (v ++ (s.reg (d + 2) ++ s.reg (d + 3))) {} s (s.setPairValue d v) := by
  obtain ⟨-, h2, h3, h12, h13, e⟩ := quad_apart d
  obtain ⟨w3, w2, w1, w0⟩ := quad_words (v ++ (s.reg (d + 2) ++ s.reg (d + 3)))
  obtain ⟨hhigh, hlow⟩ := s.setPairValue_regs_of d v
  rw [BitVec.extractLsb'_append_eq_left] at w3 w2
  rw [BitVec.extractLsb'_append_eq_right] at w1 w0
  refine ⟨?_, ?_, ?_, ?_, (OnlyChanged.setPairValue s d v).mono ?_ (by simp)⟩
  · rw [hhigh, w3]
  · rw [hlow, w2]
  · rw [← w1, highWord_append, State.reg_setPairValue_other s v h2.symm h12.symm]
  · rw [← w0, lowWord_append, State.reg_setPairValue_other s v h3.symm h13.symm]
  · intro q hq
    simp only [List.mem_cons, List.not_mem_nil, or_false] at hq ⊢
    tauto

section
variable (s : State) (d : RegCode)

theorem completes_extsb :
    Completes (.extsb d) s (WordRegister d (((s.reg d).extractLsb' 0 8).signExtend 16) {} s) := by
  have hsign : ((s.reg d).extractLsb' 0 8).msb = (s.reg d).getLsbD 7 := by
    rw [BitVec.msb_eq_getLsbD_last, BitVec.getLsbD_extractLsb']; rfl
  have hvalue := signExtend_double ((s.reg d).extractLsb' 0 8)
  rw [hsign] at hvalue
  rw [hvalue]
  exact ⟨_, rfl, wordRegister_setReg s d _⟩

theorem completes_exts (hd : pairCode d = true) :
    Completes (.exts d) s (LongRegister d ((s.reg (d + 1)).signExtend 32) {} s) := by
  have hvalue := signExtend_double (s.reg (d + 1))
  rw [← getLsbD_append_sign (s.reg d) _ (by decide)] at hvalue
  rw [hvalue]
  refine ⟨_, ?_, longRegister_setReg_high s d _⟩
  change execExts d s = _
  simp only [execExts, State.pair_legal hd, bind, Except.bind, finish_ok]
  rfl

theorem completes_extsl (hd : quadCode d = true) :
    Completes (.extsl d) s (QuadRegister d ((s.reg (d + 2) ++ s.reg (d + 3)).signExtend 64) {} s) := by
  have hvalue := signExtend_double (s.reg (d + 2) ++ s.reg (d + 3))
  rw [← getLsbD_append_sign (s.reg d ++ s.reg (d + 1)) _ (by decide)] at hvalue
  rw [hvalue]
  refine ⟨_, ?_, quadRegister_setPairValue_high s d _⟩
  change execExtsl d s = _
  simp only [execExtsl, State.quad_legal hd, bind, Except.bind, finish_ok]
  rfl

end

end Sys2Proof.Machine

section
open Sys2Proof Sys2Proof.Machine

/-- Settles O37: the exact product has a place in twice the width, and the flags are those of its bits. -/
theorem multiplyGivesExactProduct : Obligations.MultiplyGivesExactProduct := by
  refine fun s d => ⟨fun src v hd h0 h1 hv => ?mult, fun src v hd h0 h2 hv => ?multl⟩
  case mult =>
    obtain ⟨p, hp⟩ := exists_toInt_eq_mul (m := 32) (by decide) rfl (s.reg (d + 1)) v
    have h := completes_mult hd h0 h1 hv hp
    rw [multFlags_toInt] at h
    exact ⟨p, hp, h⟩
  case multl =>
    obtain ⟨p, hp⟩ := exists_toInt_eq_mul (m := 64) (by decide) rfl (s.reg (d + 2) ++ s.reg (d + 3)) v
    have h := completes_multl hd h0 h2 hv hp
    rw [multFlags_toInt] at h
    exact ⟨p, hp, h⟩

/-- Settles O38: the result and the flags in each of the four cases of `divideInt`. -/
theorem divideGivesQuotientAndRemainder : Obligations.DivideGivesQuotientAndRemainder := by
  refine fun s d => ⟨fun src v x hd h0 h1 hv hx => ?div, fun src v x hd h0 h2 hv hx => ?divl⟩
  case div =>
    exact ⟨fun q r => completes_div hd h0 h1 hv hx, fun q r => completes_div hd h0 h1 hv hx,
      completes_div hd h0 h1 hv hx, fun hc => ⟨_, completes_div hd h0 h1 hv hx hc⟩⟩
  case divl =>
    exact ⟨fun q r => completes_divl hd h0 h2 hv hx, fun q r => completes_divl hd h0 h2 hv hx,
      completes_divl hd h0 h2 hv hx, fun hc => ⟨_, completes_divl hd h0 h2 hv hx hc⟩⟩

/-- Settles O39, instruction by instruction. -/
theorem signExtensionFillsUpperHalf : Obligations.SignExtensionFillsUpperHalf :=
  fun s d => ⟨completes_extsb s d, completes_exts s d, completes_extsl s d⟩
end

/-! Decimal adjust (40_arithmetic.md R220): the table looks at a sum or difference of packed decimal bytes through the two
sums or differences of their digits, and these are few. -/

namespace Sys2Proof.Machine

open Sys2Proof

/-- The two lower decimal digits of a number, one in each half of a byte. -/
def decimalByte (total : Int) : Byte := BitVec.ofInt 8 (16 * (total % 100 / 10) + total % 10)

/-- The table has a row for the byte `a` and the flags D, C and H, which corrects the byte to `r` and C to `c'`. -/
def DabCorrects (d c h : Bool) (a r : Byte) (c' : Bool) : Prop :=
  (dabTable d c (a.toNat / 16) h (a.toNat % 16)).map (fun row => (a + row.1, row.2)) = some (r, c')

theorem dabResult_of_corrects {s : State} {a r : Byte} {c : Bool}
    (h : DabCorrects s.decimal s.carry s.halfCarry a r c) : dabResult s a = (r, c) := by
  obtain ⟨row, hrow, hresult⟩ := Option.map_eq_some_iff.mp h
  rw [dabResult, hrow]
  exact hresult

/-- DAB writes the byte and C of `dabResult`, wherever they come from. -/
theorem completes_dab {s : State} {d : RegCode} {r : Byte} {c : Bool} (h : dabResult s (s.byteReg d) = (r, c)) :
    Completes (.dab d) s (ByteRegister d r { c := c, z := r == 0, s := r.msb } s) := by
  refine ⟨_, ?_, byteRegister_set s d r _⟩
  change execDab d s = _
  simp only [execDab, h]

/-! The table on every sum and every difference of two digits, with the carry or borrow of the lower ones. -/

theorem dabCorrects_digitSums : ∀ hi ≤ 18, ∀ lo ≤ 19,
    DabCorrects false (decide (2 ^ 8 ≤ 16 * hi + lo)) (decide (15 < lo)) (BitVec.ofNat 8 (16 * hi + lo))
      (decimalByte (10 * hi + lo : Nat)) (decide ((100 : Int) ≤ (10 * hi + lo : Nat))) := by
  unfold DabCorrects
  decide

theorem dabCorrects_digitDifferences : ∀ hi : Int, -9 ≤ hi → hi ≤ 9 → ∀ lo : Int, -10 ≤ lo → lo ≤ 9 →
    DabCorrects true (decide (16 * hi + lo < 0)) (decide (lo < 0)) (BitVec.ofInt 8 (16 * hi + lo))
      (decimalByte (10 * hi + lo)) (decide (10 * hi + lo < 0)) := by
  unfold DabCorrects
  decide

theorem toNat_packed {hi lo : Nat} (hhi : hi ≤ 9) (hlo : lo ≤ 9) :
    (BitVec.ofNat 8 (16 * hi + lo)).toNat = 16 * hi + lo := by
  rw [BitVec.toNat_ofNat, Nat.mod_eq_of_lt (by omega)]

section Packed
variable {x1 x0 y1 y0 : Nat} (hx1 : x1 ≤ 9) (hx0 : x0 ≤ 9) (hy1 : y1 ≤ 9) (hy0 : y0 ≤ 9) (cin : Bool)

include hx1 hx0 hy1 hy0

theorem dabCorrects_addWith {a : Alu 8} {total : Int}
    (ha : a = addWith (BitVec.ofNat 8 (16 * x1 + x0)) (BitVec.ofNat 8 (16 * y1 + y0)) cin)
    (htotal : total = (10 * x1 + x0 : Int) + (10 * y1 + y0) + (cin.toNat : Int)) :
    DabCorrects false a.c a.h a.value (decimalByte total) (decide (100 ≤ total)) := by
  have hcin := Bool.toNat_le cin
  have hsum : 16 * x1 + x0 + (16 * y1 + y0) + cin.toNat = 16 * (x1 + y1) + (x0 + y0 + cin.toNat) := by ring
  have hhalf : (16 * x1 + x0) % 16 + (16 * y1 + y0) % 16 + cin.toNat = x0 + y0 + cin.toNat := by omega
  have hexact : total = (10 * (x1 + y1) + (x0 + y0 + cin.toNat) : Nat) := by rw [htotal]; push_cast; ring
  rw [ha, addWith, toNat_packed hx1 hx0, toNat_packed hy1 hy0, hsum, hhalf, hexact]
  exact dabCorrects_digitSums _ (by omega) _ (by omega)

theorem dabCorrects_subWith {a : Alu 8} {total : Int}
    (ha : a = subWith (BitVec.ofNat 8 (16 * x1 + x0)) (BitVec.ofNat 8 (16 * y1 + y0)) cin)
    (htotal : total = (10 * x1 + x0 : Int) - (10 * y1 + y0) - (cin.toNat : Int)) :
    DabCorrects true a.c a.h a.value (decimalByte total) (decide (total < 0)) := by
  have hcin := Bool.toNat_le cin
  have hdiff : ((16 * x1 + x0 : Nat) : Int) - (16 * y1 + y0 : Nat) - cin.toNat =
      16 * ((x1 : Int) - y1) + ((x0 : Int) - y0 - cin.toNat) := by push_cast; ring
  have hhalf : decide ((16 * x1 + x0) % 16 < (16 * y1 + y0) % 16 + cin.toNat) =
      decide ((x0 : Int) - y0 - cin.toNat < 0) := decide_eq_decide.mpr (by omega)
  have hexact : total = 10 * ((x1 : Int) - y1) + ((x0 : Int) - y0 - cin.toNat) := by rw [htotal]; ring
  rw [ha, subWith, toNat_packed hx1 hx0, toNat_packed hy1 hy0, hdiff, hhalf, hexact]
  exact dabCorrects_digitDifferences _ (by omega) (by omega) _ (by omega) (by omega)

end Packed

end Sys2Proof.Machine

section
open Sys2Proof Sys2Proof.Machine

/-- Settles O40: any byte is adjusted to what `dabResult` gives; a decimal sum or difference has a row of the table. -/
theorem decimalAdjust : Obligations.DecimalAdjust := by
  refine ⟨fun s d => ⟨_, _, completes_dab rfl⟩, ?_⟩
  rintro s d x1 x0 y1 y0 cin hx1 hx0 hy1 hy0 _ _ rfl rfl a total _ rfl hvalue hcarry hhalf
  refine ⟨fun ha hdecimal htotal => ?addition, fun ha hdecimal htotal => ?subtraction⟩
  case addition =>
    have h := dabCorrects_addWith hx1 hx0 hy1 hy0 cin ha htotal
    rw [← hdecimal, ← hcarry, ← hhalf, ← hvalue] at h
    exact completes_dab (dabResult_of_corrects h)
  case subtraction =>
    have h := dabCorrects_subWith hx1 hx0 hy1 hy0 cin ha htotal
    rw [← hdecimal, ← hcarry, ← hhalf, ← hvalue] at h
    exact completes_dab (dabResult_of_corrects h)
end

/-! Bits and flags (41_logical_bit.md R281 to R295): RES and SET are read-modify-writes of one bit; the flag instructions
write the flags that their field names, as bits of the FCW; TCC and TCCB write their register on a condition. -/

namespace Sys2Proof.Machine

open Sys2Proof

/-! The flags a field CZSV names. -/

/-- The field stands at the places of the flags in the FCW (30_encoding.md R115). -/
theorem getLsbD_flagMask (czsv : Nibble) (i : Nat) :
    (flagMask czsv).getLsbD i = (decide (4 ≤ i ∧ i < 8) && czsv.getLsbD (i - 4)) := by
  rw [flagMask, BitVec.getLsbD_append, BitVec.getLsbD_append]
  grind

/-- The write of the flags that the field names, each with the value `new` has at its place in the FCW, and of H. -/
def namedFlags (czsv : Nibble) (new : Nat → Bool) (h : Option Bool) : FlagWrite where
  c := if czsv.getLsbD 3 then some (new 7) else none
  z := if czsv.getLsbD 2 then some (new 6) else none
  s := if czsv.getLsbD 1 then some (new 5) else none
  v := if czsv.getLsbD 0 then some (new 4) else none
  h := h

/-- A written flag has its new value if the field names it, and else keeps its value. -/
theorem getD_named (named new old : Bool) :
    (if named then some new else none).getD old = if named then new else old := by cases named <;> rfl

/-- Bit by bit: the mask tells which bits are written; H goes its own way. -/
theorem getLsbD_apply_namedFlags (czsv : Nibble) (new : Nat → Bool) (h : Option Bool) (w : Word) (i : Nat) :
    ((namedFlags czsv new h).apply w).getLsbD i =
      if (flagMask czsv).getLsbD i then new i else if i = 2 then h.getD (w.getLsbD 2) else w.getLsbD i := by
  rw [FlagWrite.getLsbD_apply, getLsbD_flagMask]
  simp only [namedFlags, getD_named]
  by_cases hi : 4 ≤ i ∧ i < 8
  · obtain ⟨hlo, hhi⟩ := hi
    interval_cases i <;> simp
  · grind

section
variable (czsv : Nibble) (w : Word)

/-- COMFLG complements the named flags, and H always (R281). -/
theorem xor_flagMask : w ^^^ flagMask czsv ^^^ 0x0004#16 =
    (namedFlags czsv (fun i => !w.getLsbD i) (some (!w.getLsbD 2))).apply w := by
  apply BitVec.eq_of_getLsbD_eq
  intro i hi
  rw [getLsbD_apply_namedFlags, BitVec.getLsbD_xor, BitVec.getLsbD_xor]
  by_cases h2 : i = 2
  · subst h2
    rw [show (flagMask czsv).getLsbD 2 = false from getLsbD_flagMask czsv 2]
    simp
  · have hmask : (0x0004#16).getLsbD i = false := by interval_cases i <;> simp_all
    cases (flagMask czsv).getLsbD i <;> simp [h2, hmask]

/-- RESFLG clears the named flags (R288). -/
theorem andNot_flagMask : w &&& ~~~flagMask czsv = (namedFlags czsv (fun _ => false) none).apply w := by
  apply BitVec.eq_of_getLsbD_eq
  intro i hi
  rw [getLsbD_apply_namedFlags, BitVec.getLsbD_and, BitVec.getLsbD_not]
  cases (flagMask czsv).getLsbD i <;> grind

/-- SETFLG sets the named flags (R293). -/
theorem or_flagMask : w ||| flagMask czsv = (namedFlags czsv (fun _ => true) none).apply w := by
  apply BitVec.eq_of_getLsbD_eq
  intro i _
  rw [getLsbD_apply_namedFlags, BitVec.getLsbD_or]
  cases (flagMask czsv).getLsbD i <;> grind

end

/-- An instruction whose only effect is a new FCW writes the flags that tell the new word from the old. -/
theorem Completes.ofFcw {i : Instr} {s : State} {w : Word} {f : FlagWrite}
    (hi : exec i s = .next { s with fcw := w }) (hw : w = f.apply s.fcw) : Completes i s (OnlyChanged [] [] f s) :=
  ⟨s.setFlags f, by rw [hi, hw]; rfl, OnlyChanged.setFlags s f⟩

/-! RES and SET. The static and the dynamic forms differ in where the bit number comes from. -/

section
variable {i : Instr} {s : State} {d r : RegCode}

/-- The dynamic word forms take the bit number modulo 16. -/
theorem Completes.dynamicWord {op : Nat → Word → Word × FlagWrite}
    (hi : exec i s = finish (Machine.modifyWord (op (dynamicBit s r)) (.reg d) s)) :
    Completes i s (WordRegister d (op ((s.reg r).toNat % 16) (s.reg d)).1 (op ((s.reg r).toNat % 16) (s.reg d)).2 s) := by
  rw [← dynamicBit_eq]
  exact .modifyWord (dst := Dst.reg d) hi rfl rfl

/-- The dynamic byte forms take it modulo 8. -/
theorem Completes.dynamicByte {op : Nat → Byte → Byte × FlagWrite}
    (hi : exec i s = finish (Machine.modifyByte (op (dynamicBitByte s r)) (.reg d) s)) :
    Completes i s
      (ByteRegister d (op ((s.reg r).toNat % 8) (s.byteReg d)).1 (op ((s.reg r).toNat % 8) (s.byteReg d)).2 s) := by
  rw [← dynamicBitByte_eq]
  exact .modifyByte (dst := Dst.reg d) hi rfl rfl

end

/-! TCC and TCCB write when the condition holds (R294, R295). -/

section
variable {s : State} {cc : Cond} (d : RegCode)

theorem exec_tcc_of_true (hcc : s.cond cc = true) :
    exec (.tcc cc d) s = .next (s.setReg d (s.reg d ||| 0x0001#16)) := congrArg Host.Outcome.next (if_pos hcc)

theorem exec_tccb_of_true (hcc : s.cond cc = true) :
    exec (.tccb cc d) s = .next (s.setByteReg d (s.byteReg d ||| 0x01#8)) := congrArg Host.Outcome.next (if_pos hcc)

theorem exec_tcc_of_false (hcc : s.cond cc = false) : exec (.tcc cc d) s = .next s :=
  congrArg Host.Outcome.next (if_neg (ne_true_of_eq_false hcc))

theorem exec_tccb_of_false (hcc : s.cond cc = false) : exec (.tccb cc d) s = .next s :=
  congrArg Host.Outcome.next (if_neg (ne_true_of_eq_false hcc))

end

end Sys2Proof.Machine

section
open Sys2Proof Sys2Proof.Machine

/-- Settles O35: each is a read-modify-write of one bit that writes no flag. -/
theorem bitsClearedAndSet : Obligations.BitsClearedAndSet := by
  intro s
  refine ⟨fun dst a b ha => ⟨?res, ?set⟩, fun dst a b ha => ⟨?resb, ?setb⟩,
    fun d r => ⟨?resDyn, ?setDyn, ?resbDyn, ?setbDyn⟩⟩
  case res => exact .modifyWord rfl ha rfl
  case set => exact .modifyWord rfl ha rfl
  case resb => exact .modifyByte rfl ha rfl
  case setb => exact .modifyByte rfl ha rfl
  case resDyn => exact .dynamicWord (op := bitReset) rfl
  case setDyn => exact .dynamicWord (op := bitSet) rfl
  case resbDyn => exact .dynamicByte (op := bitReset) rfl
  case setbDyn => exact .dynamicByte (op := bitSet) rfl

/-- Settles O36: the words by `decode_encode`, the flags by what each instruction does to the FCW. -/
theorem flagAndConditionInstructions : Obligations.FlagAndConditionInstructions := by
  intro s
  refine ⟨fun f => ⟨fun rest => ?encodings, ?comflg, ?resflg, ?setflg⟩,
    fun cc d => ⟨fun hcc => ?holds, fun hcc => ?fails⟩⟩
  case encodings =>
    exact ⟨decode_encode (i := .comflg f) rfl rest, decode_encode (i := .resflg f) rfl rest,
      decode_encode (i := .setflg f) rfl rest⟩
  case comflg => exact .ofFcw rfl (xor_flagMask f s.fcw)
  case resflg => exact .ofFcw rfl (andNot_flagMask f s.fcw)
  case setflg => exact .ofFcw rfl (or_flagMask f s.fcw)
  case holds =>
    exact ⟨⟨_, exec_tcc_of_true d hcc, wordRegister_setReg s d _⟩,
      ⟨_, exec_tccb_of_true d hcc, byteRegister_setByteReg s d _⟩⟩
  case fails => exact ⟨exec_tcc_of_false d hcc, exec_tccb_of_false d hcc⟩
end

/-! Control transfer (42_control_transfer.md). The statements set the pc of the state before the instruction, the model
jumps last: a jump on both sides keeps what a change says, because no change of registers and memory reads the pc. -/

namespace Sys2Proof.Machine

open Sys2Proof

section
variable {s t : State} {f : FlagWrite}

theorem OnlyChanged.jump {ds : List RegCode} {bs : List Word} (h : OnlyChanged ds bs f s t) (a : Word) :
    OnlyChanged ds bs f (s.jump a) (t.jump a) := { h with pc := rfl }

theorem WordRegister.jump {d : RegCode} {v : Word} (h : WordRegister d v f s t) (a : Word) :
    WordRegister d v f (s.jump a) (t.jump a) :=
  have ⟨hvalue, hrest⟩ := h
  ⟨hvalue, hrest.jump a⟩

theorem ByteRegister.jump {d : RegCode} {v : Byte} (h : ByteRegister d v f s t) (a : Word) :
    ByteRegister d v f (s.jump a) (t.jump a) :=
  have ⟨hvalue, hothers, hrest⟩ := h
  ⟨hvalue, hothers, hrest.jump a⟩

theorem Pushed.jump {sp : RegCode} {v : Word} (h : Pushed sp v s t) (a : Word) : Pushed sp v (s.jump a) (t.jump a) :=
  have ⟨hpointer, hhigh, hlow, hrest⟩ := h
  ⟨hpointer, hhigh, hlow, hrest.jump a⟩

end

/-! A jump that is taken or not is a jump to the target or to the pc already there. -/

section
variable (s : State) (p : Prop) [Decidable p] (a : Word)

theorem State.jump_pc_self : s.jump s.pc = s := rfl

theorem State.ite_jump : (if p then s.jump a else s) = s.jump (if p then a else s.pc) := by
  rw [apply_ite s.jump, State.jump_pc_self]

theorem State.ite_stay : (if p then s else s.jump a) = s.jump (if p then s.pc else a) := by
  rw [apply_ite s.jump, State.jump_pc_self]

end

/-! CALL and CALR share the push of the return address (R321, R323). -/

section
variable {s : State}

theorem callTo_ok (h : evenAddress (s.reg 15) = true) (target : Word) :
    callTo s target = .ok (((s.setReg 15 (s.reg 15 - 2)).putWord .stack (s.reg 15 - 2) s.pc).jump target) := by
  rw [callTo, State.pushWord_ok h]
  rfl

theorem Completes.callTo {i : Instr} {target : Word} (hi : exec i s = finish (callTo s target))
    (h : evenAddress (s.reg 15) = true) : Completes i s (Pushed 15 s.pc (s.jump target)) :=
  ⟨_, hi.trans (congrArg finish (callTo_ok h target)), (pushed_put s 15 s.pc).jump target⟩

/-! RET (R328). -/

theorem exec_ret_of_true {cc : Cond} (hcc : s.cond cc = true) (h : evenAddress (s.reg 15) = true) :
    exec (.ret cc) s = .next ((s.setReg 15 (s.reg 15 + 2)).jump (s.wordAt .stack (s.reg 15))) := by
  refine (if_pos hcc).trans ?_
  rw [State.popWord_ok h]
  rfl

theorem exec_ret_of_false {cc : Cond} (hcc : s.cond cc = false) : exec (.ret cc) s = .next s :=
  if_neg (ne_true_of_eq_false hcc)

end

/-! DJNZ and DBJNZ: the register falls by one, then the jump is taken or not (R324, R325). -/

section
variable (s : State) (r : RegCode) (disp : BitVec 7)

theorem exec_djnz : exec (.djnz r disp) s = .next ((s.setReg r (s.reg r - 1)).jump
    (if s.reg r = 1 then s.pc else s.pc - 2 * disp.zeroExtend 16)) := by
  refine congrArg Host.Outcome.next ((State.ite_stay _ _ _).trans ?_)
  simp only [sub_eq_zero, State.setReg_pc]

theorem exec_dbjnz : exec (.dbjnz r disp) s = .next ((s.setByteReg r (s.byteReg r - 1)).jump
    (if s.byteReg r = 1 then s.pc else s.pc - 2 * disp.zeroExtend 16)) := by
  refine congrArg Host.Outcome.next ((State.ite_stay _ _ _).trans ?_)
  simp only [sub_eq_zero, State.setByteReg_pc]

end

end Sys2Proof.Machine

section
open Sys2Proof Sys2Proof.Machine

/-- Settles O41: a call is a push and a jump, a taken return a pop and a jump. -/
theorem callsAndReturns : Obligations.CallsAndReturns := by
  intro s heven
  refine ⟨fun m => ?call, fun disp => ?calr, fun cc => ⟨fun hcc => ?taken, fun hcc => ?notTaken⟩⟩
  case call => exact .callTo rfl heven
  case calr => exact .callTo rfl heven
  case taken =>
    exact ⟨_, exec_ret_of_true hcc heven, State.reg_setReg_same s 15 _, (OnlyChanged.setReg s 15 _).jump _⟩
  case notTaken => exact exec_ret_of_false hcc

/-- Settles O42: each is a jump to the target or to the next instruction, the loops after the decrement. -/
theorem jumpsAndLoops : Obligations.JumpsAndLoops := by
  intro s
  refine ⟨fun cc m => ?jp, fun cc disp => ?jr, fun r disp => ⟨?djnz, ?dbjnz⟩⟩
  case jp => exact congrArg Host.Outcome.next (s.ite_jump _ _)
  case jr => exact congrArg Host.Outcome.next (s.ite_jump _ _)
  case djnz => exact ⟨_, exec_djnz s r disp, (wordRegister_setReg s r _).jump _⟩
  case dbjnz => exact ⟨_, exec_dbjnz s r disp, (byteRegister_setByteReg s r _).jump _⟩
end

/-! Load, store, exchange and stack (43_load_store.md): a load is an operand and a register write, a store a register
and a memory write. -/

namespace Sys2Proof.Machine

open Sys2Proof

section
variable {i : Instr} {s : State}

/-! Loads: LD, LDR and their byte and long forms share the write of the register that follows the read. -/

theorem Completes.loadWord {a : Attempt Word} {d : RegCode} {v : Word} (hi : exec i s = finish (a >>= s.assignWord d))
    (ha : a = .ok v) : Completes i s (WordRegister d v {} s) :=
  ⟨s.setReg d v, by rw [hi, ha]; rfl, wordRegister_setReg s d v⟩

theorem Completes.loadByte {a : Attempt Byte} {d : RegCode} {v : Byte} (hi : exec i s = finish (a >>= s.assignByte d))
    (ha : a = .ok v) : Completes i s (ByteRegister d v {} s) :=
  ⟨s.setByteReg d v, by rw [hi, ha]; rfl, byteRegister_setByteReg s d v⟩

theorem Completes.loadLong {a : Attempt Long} {d : RegCode} {v : Long} (hi : exec i s = finish (a >>= s.assignLong d))
    (hd : pairCode d = true) (ha : a = .ok v) : Completes i s (LongRegister d v {} s) := by
  refine ⟨s.setPairValue d v, ?_, longRegister_setPairValue s d v⟩
  rw [hi, ha]
  exact congrArg finish (State.setPair_legal hd)

/-! Stores: the same for memory. -/

theorem Completes.storeWord {l : Space × Word} {v : Word} (hi : exec i s = finish (s.storeWord l v))
    (hl : evenAddress l.2 = true) : Completes i s (WordStored l v {} s) :=
  ⟨s.putWord l.1 l.2 v, hi.trans (congrArg finish (State.writeWord_even hl)), wordStored_putWord s l v⟩

theorem Completes.storeByte {l : Space × Word} {v : Byte} (hi : exec i s = finish (s.storeByte l v)) :
    Completes i s (ByteStored l v {} s) :=
  ⟨s.writeByte l.1 l.2 v, hi, byteStored_writeByte s l v⟩

theorem Completes.storePair {l : Space × Word} {r : RegCode}
    (hi : exec i s = finish (s.fetchLong r >>= s.storeLong l)) (hr : pairCode r = true)
    (hl : evenAddress l.2 = true) : Completes i s (LongStored l (s.reg r ++ s.reg (r + 1)) {} s) := by
  refine ⟨s.putLong l.1 l.2 (s.reg r ++ s.reg (r + 1)), ?_, longStored_putLong s l _⟩
  rw [hi, State.fetchLong, State.pair_legal hr]
  exact congrArg finish (State.writeLong_even hl)

end

/-! Reads across writes that the exchanges and pops put between. -/

section
variable (s : State) (sp sq : Space) (a : Word)

@[simp] theorem State.wordAt_setReg (r : RegCode) (v : Word) : (s.setReg r v).wordAt sp a = s.wordAt sp a :=
  State.wordAt_congr (s.setReg_mem r v) sp a

@[simp] theorem State.readByte_setByteReg (c : RegCode) (v : Byte) :
    (s.setByteReg c v).readByte sp a = s.readByte sp a := s.readByte_setReg _ _ sp a

@[simp] theorem State.writeByte_byteReg (v : Byte) (c : RegCode) : (s.writeByte sp a v).byteReg c = s.byteReg c := by
  simp only [State.byteReg, State.writeByte_reg]

end

/-! EX and EXB between two registers, which may be one and the same. -/

section
variable (s : State) (d r : RegCode)

theorem State.reg_exchanged : ((s.setReg r (s.reg d)).setReg d (s.reg r)).reg r = s.reg d := by
  by_cases hrd : r = d
  · rw [hrd, State.reg_setReg_same]
  · rw [State.reg_setReg_other _ _ hrd, State.reg_setReg_same]

theorem State.byteReg_exchanged : ((s.setByteReg r (s.byteReg d)).setByteReg d (s.byteReg r)).byteReg r =
    s.byteReg d := by
  by_cases hrd : r = d
  · rw [hrd, State.byteReg_setByteReg_same]
  · rw [State.byteReg_setByteReg_other _ _ hrd, State.byteReg_setByteReg_same]

theorem exec_ex_mem {m : Mem} (h : evenAddress (s.memLoc m).2 = true) : exec (.ex d (.mem m)) s =
    .next ((s.putWord (s.memLoc m).1 (s.memLoc m).2 (s.reg d)).setReg d (s.wordAt (s.memLoc m).1 (s.memLoc m).2)) := by
  change execEx d (.mem m) s = _
  simp only [execEx, State.dstWord, State.setDstWord, State.loadWord, State.storeWord, State.readWord_even h,
    State.writeWord_even h, State.fetchWord, State.assignWord, bind, Except.bind, finish_ok]

end

/-! LDM: the codes of consecutive registers, and the addresses of consecutive bytes, are a run of bit vectors that wraps
around. -/

/-- The `n` bit vectors from `a` on. -/
def wrappingRun {w : Nat} (a : BitVec w) (n : Nat) : List (BitVec w) :=
  (List.range n).map fun k => a + BitVec.ofNat w k

section
variable {w : Nat} (a : BitVec w)

theorem add_ofNat_succ (k : Nat) : a + BitVec.ofNat w (k + 1) = a + 1 + BitVec.ofNat w k := by
  rw [Nat.add_comm, BitVec.ofNat_add, BitVec.add_assoc]
  rfl

theorem wrappingRun_succ (n : Nat) : wrappingRun a (n + 1) = a :: wrappingRun (a + 1) n := by
  rw [wrappingRun, List.range_succ_eq_map, List.map_cons, List.map_map, BitVec.add_zero]
  exact congrArg (a :: ·) (List.map_congr_left fun k _ => add_ofNat_succ a k)

/-- A run that is not longer than once around meets no value twice. -/
theorem wrappingRun_nodup {n : Nat} (hn : n ≤ 2 ^ w) : (wrappingRun a n).Nodup := by
  refine List.nodup_range.map_on fun x hx y hy hxy => ?_
  have hxn := List.mem_range.mp hx
  have hyn := List.mem_range.mp hy
  have hval := congrArg BitVec.toNat (add_left_cancel hxy)
  rwa [BitVec.toNat_ofNat, BitVec.toNat_ofNat, Nat.mod_eq_of_lt (by omega), Nat.mod_eq_of_lt (by omega)] at hval

end

/-- The address of word `k + 1` of a run of words, counted from its second word. -/
theorem wordAddress_succ (a : Word) (k : Nat) :
    a + BitVec.ofNat 16 (2 * (k + 1)) = a + 2 + BitVec.ofNat 16 (2 * k) := by
  rw [Nat.mul_succ, add_ofNat_succ, add_ofNat_succ, BitVec.add_assoc a]
  rfl

/-- A load of up to sixteen registers: each register is loaded once, so that a later load does not undo it. -/
theorem loadMultiple_ok {sp : Space} {n : Nat} {d : RegCode} {a : Word} (s : State) (hn : n ≤ 2 ^ 4)
    (ha : evenAddress a = true) : ∃ t, loadMultiple sp n d a s = .ok t ∧
      (∀ k < n, t.reg (d + BitVec.ofNat 4 k) = s.wordAt sp (a + BitVec.ofNat 16 (2 * k))) ∧
      OnlyChanged (wrappingRun d n) [] {} s t := by
  induction n generalizing d a s with
  | zero => exact ⟨s, rfl, nofun, OnlyChanged.refl s⟩
  | succ n ih =>
    obtain ⟨t, ht, hloaded, hrest⟩ :=
      ih (d := d + 1) (s.setReg d (s.wordAt sp a)) (by omega) ((evenAddress_add_two a).trans ha)
    have hnodup := wrappingRun_nodup d hn
    rw [wrappingRun_succ, List.nodup_cons] at hnodup
    refine ⟨t, ?_, fun k hk => ?_, ?_⟩
    · rw [loadMultiple, State.readWord_even ha]
      exact ht
    · cases k with
      | zero => simpa using hrest.registers d hnodup.1
      | succ k =>
        rw [add_ofNat_succ, wordAddress_succ, hloaded k (by omega), State.wordAt_setReg]
    · rw [wrappingRun_succ]
      exact (OnlyChanged.setReg s d _).trans hrest

/-- A store of up to all of memory: each byte is stored once, so that a later store does not undo it. -/
theorem storeMultiple_ok {sp : Space} {n : Nat} {r : RegCode} {a : Word} (s : State) (hn : 2 * n ≤ 2 ^ 16)
    (ha : evenAddress a = true) : ∃ t, storeMultiple sp n r a s = .ok t ∧
      (∀ k < n, t.wordAt sp (a + BitVec.ofNat 16 (2 * k)) = s.reg (r + BitVec.ofNat 4 k)) ∧
      OnlyChanged [] (wrappingRun a (2 * n)) {} s t := by
  induction n generalizing r a s with
  | zero => exact ⟨s, rfl, nofun, OnlyChanged.refl s⟩
  | succ n ih =>
    obtain ⟨t, ht, hstored, hrest⟩ :=
      ih (r := r + 1) (s.putWord sp a (s.reg r)) (by omega) ((evenAddress_add_two a).trans ha)
    have hrun : wrappingRun a (2 * (n + 1)) = a :: (a + 1) :: wrappingRun (a + 2) (2 * n) := by
      rw [Nat.mul_succ, wrappingRun_succ, wrappingRun_succ, BitVec.add_assoc]
      rfl
    have hnodup := wrappingRun_nodup a hn
    rw [hrun, List.nodup_cons, List.nodup_cons, List.mem_cons, not_or] at hnodup
    obtain ⟨⟨-, hhigh⟩, hlow, -⟩ := hnodup
    refine ⟨t, ?_, fun k hk => ?_, ?_⟩
    · rw [storeMultiple, State.writeWord_even ha]
      exact ht
    · cases k with
      | zero =>
        have hfirst : t.wordAt sp a = (s.putWord sp a (s.reg r)).wordAt sp a := by
          rw [State.wordAt, hrest.bytes sp a hhigh, hrest.bytes sp (a + 1) hlow]
          rfl
        simpa using hfirst
      | succ k =>
        rw [add_ofNat_succ, wordAddress_succ, hstored k (by omega), State.putWord_reg]
    · rw [hrun]
      exact (OnlyChanged.putWord s sp a _).trans hrest

/-! The stack instructions through any register (R400 to R404). -/

section
variable {i : Instr} {s : State} {sp : RegCode} (h : evenAddress (s.reg sp) = true)
include h

theorem pushThrough_ok (v : Word) :
    pushThrough s sp v = .ok ((s.setReg sp (s.reg sp - 2)).putWord (dspace sp) (s.reg sp - 2) v) :=
  State.writeWord_even ((evenAddress_sub_two _).trans h)

theorem Completes.pushThrough {a : Attempt Word} {v : Word}
    (hi : exec i s = finish (a >>= Machine.pushThrough s sp)) (ha : a = .ok v) : Completes i s (Pushed sp v s) := by
  refine ⟨_, ?_, pushed_put s sp v⟩
  rw [hi, ha]
  exact congrArg finish (pushThrough_ok h v)

theorem exec_pushl {src : Dst} {v : Long} (hv : s.dstLong src = .ok v) : exec (.pushl sp src) s =
    .next ((s.setReg sp (s.reg sp - 4)).putLong (dspace sp) (s.reg sp - 4) v) := by
  have heven : evenAddress (s.reg sp - 4) = true := (evenAddress_sub_four _).trans h
  change execPushl sp src s = _
  simp only [execPushl, hv, bind, Except.bind, State.writeLong_even heven, finish_ok]

/-- POP writes its destination, and then raises the stack register. -/
theorem exec_pop {dst : Dst} {t : State} (hdst : popOverlaps dst sp = false)
    (ht : s.setDstWord dst (s.wordAt (dspace sp) (s.reg sp)) = .ok t) :
    exec (.pop dst sp) s = .next (t.setReg sp (s.reg sp + 2)) := by
  change execPop dst sp s = _
  simp only [execPop, requireApart_ok hdst, State.readWord_even h, ht, bind, Except.bind, finish_ok]

theorem exec_popl {dst : Dst} {t : State} (hdst : poplOverlaps dst sp = false)
    (ht : s.setDstLong dst (s.wordAt (dspace sp) (s.reg sp) ++ s.wordAt (dspace sp) (s.reg sp + 2)) = .ok t) :
    exec (.popl dst sp) s = .next (t.setReg sp (s.reg sp + 4)) := by
  change execPopl dst sp s = _
  simp only [execPopl, requireApart_ok hdst, State.readLong_even h, ht, bind, Except.bind, finish_ok]

end

/-- `Pushed` for a long: the register fell by 4 and points at the high word, the low word follows it, and nothing else
changed. -/
def LongPushed (sp : RegCode) (v : Long) (s t : State) : Prop :=
  t.reg sp = s.reg sp - 4 ∧ t.wordAt (dspace sp) (s.reg sp - 4) = v.extractLsb' 16 16 ∧
    t.wordAt (dspace sp) (s.reg sp - 2) = v.extractLsb' 0 16 ∧
    OnlyChanged [sp] [s.reg sp - 4, s.reg sp - 3, s.reg sp - 2, s.reg sp - 1] {} s t

theorem longPushed_put (s : State) (sp : RegCode) (v : Long) :
    LongPushed sp v s ((s.setReg sp (s.reg sp - 4)).putLong (dspace sp) (s.reg sp - 4) v) := by
  have hstored := OnlyChanged.putLong (s.setReg sp (s.reg sp - 4)) (dspace sp) (s.reg sp - 4) v
  have h3 : s.reg sp - 3 = s.reg sp - 4 + 1 := by bv_omega
  have h2 : s.reg sp - 2 = s.reg sp - 4 + 2 := by bv_omega
  have h1 : s.reg sp - 1 = s.reg sp - 4 + 3 := by bv_omega
  rw [LongPushed, h3, h2, h1]
  exact ⟨(hstored.registers sp List.not_mem_nil).trans (State.reg_setReg_same s sp _),
    State.wordAt_putLong_high _ _ _ _ v, State.wordAt_putLong_low _ _ _ _ v,
    (OnlyChanged.setReg s sp _).trans hstored⟩

end Sys2Proof.Machine

section
open Sys2Proof Sys2Proof.Machine

/-- Settles O43: each load is a read that answers and a write of its register. -/
theorem loadsFillRegisters : Obligations.LoadsFillRegisters := by
  intro s d
  refine ⟨fun src v hv => ?ld, fun src v hv => ?ldb, fun src v hd hv => ?ldl, fun v => ?ldbShort, fun v => ?ldk,
    fun src => ?lda, fun disp => ⟨?ldar, ?ldrb, fun heven => ?ldr, fun heven hd => ?ldrl⟩⟩
  case ld => exact .loadWord rfl hv
  case ldb => exact .loadByte rfl hv
  case ldl => exact .loadLong rfl hd hv
  case ldbShort => exact .loadByte (a := .ok v) rfl rfl
  case ldk => exact .loadWord (a := .ok (v.zeroExtend 16)) rfl rfl
  case lda => exact .loadWord (a := .ok (s.ldaAddress src)) rfl (by cases src <;> rfl)
  case ldar => exact .loadWord (a := .ok (s.raAddress disp)) rfl rfl
  case ldrb => exact .loadByte rfl rfl
  case ldr => exact .loadWord rfl (State.readWord_even heven)
  case ldrl => exact .loadLong rfl hd (State.readLong_even heven)

/-- Settles O44: each store is a memory write at the location of its destination, which the parity lets pass. -/
theorem storesFillMemory : Obligations.StoresFillMemory := by
  intro s r
  refine ⟨fun dst => ⟨?ldb, fun heven => ⟨?ld, fun hr => ?ldl⟩⟩, fun m v heven => ?ldImm, fun m v => ?ldbImm,
    fun disp => ⟨?ldrb, fun heven => ⟨?ldr, fun hr => ?ldrl⟩⟩⟩
  case ldb => exact .storeByte rfl
  case ld => exact .storeWord rfl heven
  case ldl => exact .storePair rfl hr heven
  case ldImm => exact .storeWord rfl heven
  case ldbImm => exact .storeByte rfl
  case ldrb => exact .storeByte rfl
  case ldr => exact .storeWord rfl heven
  case ldrl => exact .storePair (l := (.program, s.pc + disp)) rfl hr heven

/-- Settles O45: the operand is written first and the register last, both with what was read before. -/
theorem exchangesSwap : Obligations.ExchangesSwap := by
  intro s d
  refine ⟨fun r => ?exReg, fun m heven => ?exMem, fun r => ?exbReg, fun m => ?exbMem⟩
  case exReg =>
    refine ⟨(s.setReg r (s.reg d)).setReg d (s.reg r), rfl, State.reg_setReg_same _ d _, s.reg_exchanged d r, ?_⟩
    exact ((OnlyChanged.setReg s r _).trans (OnlyChanged.setReg _ d _)).mono (by simp) (by simp)
  case exMem =>
    refine ⟨_, exec_ex_mem s d heven, State.reg_setReg_same _ d _, ?_, ?_⟩
    · rw [State.wordAt_setReg, State.wordAt_putWord_same]
    · exact (OnlyChanged.putWord s _ _ _).trans (OnlyChanged.setReg _ d _)
  case exbReg =>
    refine ⟨(s.setByteReg r (s.byteReg d)).setByteReg d (s.byteReg r), rfl, State.byteReg_setByteReg_same _ d _,
      s.byteReg_exchanged d r, fun e hd hr => ?_, ?_⟩
    · rw [State.byteReg_setByteReg_other _ _ hd, State.byteReg_setByteReg_other _ _ hr]
    · exact ((OnlyChanged.setByteReg s r _).trans (OnlyChanged.setByteReg _ d _)).mono (by simp) (by simp)
  case exbMem =>
    refine ⟨(s.writeByte (s.memLoc m).1 (s.memLoc m).2 (s.byteReg d)).setByteReg d
      (s.readByte (s.memLoc m).1 (s.memLoc m).2), rfl, State.byteReg_setByteReg_same _ d _, ?_, fun e hd => ?_, ?_⟩
    · rw [State.readByte_setByteReg, State.readByte_writeByte_same]
    · rw [State.byteReg_setByteReg_other _ _ hd, State.writeByte_byteReg]
    · exact (OnlyChanged.writeByte s _ _ _).trans (OnlyChanged.setByteReg _ d _)

/-- Settles O46: the at most sixteen registers, and the at most 32 bytes, are all different. -/
theorem loadMultipleMovesConsecutive : Obligations.LoadMultipleMovesConsecutive := by
  intro s r m n heven
  have hn : n.toNat < 16 := n.isLt
  refine ⟨?load, ?store⟩
  case load =>
    obtain ⟨t, ht, hloaded, hrest⟩ := loadMultiple_ok (sp := (s.memLoc m).1) (n := n.toNat + 1) (d := r) s hn heven
    exact ⟨t, congrArg finish ht, fun k hk => hloaded k (Nat.lt_succ_of_le hk), hrest⟩
  case store =>
    obtain ⟨t, ht, hstored, hrest⟩ :=
      storeMultiple_ok (sp := (s.memLoc m).1) (n := n.toNat + 1) (r := r) s (by omega) heven
    exact ⟨t, congrArg finish ht, fun k hk => hstored k (Nat.lt_succ_of_le hk), hrest⟩

/-- Settles O47: the operand that is read is stored where the lowered stack register points. -/
theorem pushesStoreBelow : Obligations.PushesStoreBelow := by
  intro s sp heven
  refine ⟨fun src v hv => ?push, fun v => ?pushImm, fun src v hv => ?pushl⟩
  case push => exact .pushThrough heven rfl hv
  case pushImm => exact .pushThrough (a := .ok v) heven rfl rfl
  case pushl => exact ⟨_, exec_pushl heven hv, longPushed_put s sp v⟩

/-- Settles O48: the destination is written as by a load or a store, and the stack register is not part of it. -/
theorem popsLoadAndRelease : Obligations.PopsLoadAndRelease := by
  intro s sp heven
  refine ⟨fun d hd => ?popReg, fun m hm => ?popMem, fun d hpair h0 h1 => ?poplReg, fun m hm => ?poplMem⟩
  case popReg =>
    refine ⟨_, exec_pop heven (dst := .reg d) (beq_false_of_ne hd) rfl, ?_, State.reg_setReg_same _ sp _,
      (OnlyChanged.setReg s d _).trans (OnlyChanged.setReg _ sp _)⟩
    rw [State.reg_setReg_other _ _ hd, State.reg_setReg_same]
  case popMem =>
    refine ⟨_, exec_pop heven (dst := .mem m) rfl (State.writeWord_even hm), ?_, State.reg_setReg_same _ sp _,
      (OnlyChanged.putWord s _ _ _).trans (OnlyChanged.setReg _ sp _)⟩
    rw [State.wordAt_setReg, State.wordAt_putWord_same]
  case poplReg =>
    have hapart : poplOverlaps (.reg d) sp = false := by
      rw [poplOverlaps, beq_false_of_ne h0, beq_false_of_ne h1, Bool.or_self]
    obtain ⟨hhigh, hlow⟩ :=
      s.setPairValue_regs_of d (s.wordAt (dspace sp) (s.reg sp) ++ s.wordAt (dspace sp) (s.reg sp + 2))
    refine ⟨_, exec_popl heven hapart (State.setPair_legal hpair), ?_, ?_, State.reg_setReg_same _ sp _,
      (OnlyChanged.setPairValue s d _).trans (OnlyChanged.setReg _ sp _)⟩
    · rw [State.reg_setReg_other _ _ h0.symm, hhigh, highWord_append]
    · rw [State.reg_setReg_other _ _ h1.symm, hlow, lowWord_append]
  case poplMem =>
    refine ⟨_, exec_popl heven (dst := .mem m) rfl (State.writeLong_even hm), ?_, ?_, State.reg_setReg_same _ sp _,
      (OnlyChanged.putLong s _ _ _).trans (OnlyChanged.setReg _ sp _)⟩
    · rw [State.wordAt_setReg, State.wordAt_putLong_high, highWord_append]
    · rw [State.wordAt_setReg, State.wordAt_putLong_low, lowWord_append]
end

/-! Rotate and shift (44_rotate_shift.md): each instruction is one of the five operations of RotateShift.lean, which
write a register and the flags, or the rotate of the digits of two byte registers. -/

namespace Sys2Proof.Machine

open Sys2Proof

section
variable {i : Instr} {s : State} {d : RegCode}

theorem Completes.rotateWord {k : ShiftKind} {two : Bool} (hi : exec i s = finish (rotateWord k d two s)) :
    ∀ z, z = rotateBy k two (s.reg d) s.carry → Completes i s (WordRegister d z.x z.flags s) := by
  rintro _ rfl
  exact ⟨_, by rw [hi, rotateWord_ok, finish_ok], wordRegister_set s d _ _⟩

theorem Completes.rotateByte {k : ShiftKind} {two : Bool} (hi : exec i s = finish (rotateByte k d two s)) :
    ∀ z, z = rotateBy k two (s.byteReg d) s.carry → Completes i s (ByteRegister d z.x z.flags s) := by
  rintro _ rfl
  exact ⟨_, by rw [hi, rotateByte_ok, finish_ok], byteRegister_set s d _ _⟩

variable {arithmetic : Bool} {count : Int} {carry : ZeroCountCarry}

theorem Completes.shiftWord (hi : exec i s = finish (shiftWord arithmetic d count carry s)) :
    ∀ z, z = shiftResult arithmetic (s.reg d) count carry → Completes i s (WordRegister d z.1 z.2 s) := by
  rintro _ rfl
  exact ⟨_, by rw [hi, shiftWord_ok, finish_ok], wordRegister_set s d _ _⟩

theorem Completes.shiftByte (hi : exec i s = finish (shiftByte arithmetic d count carry s)) :
    ∀ z, z = shiftResult arithmetic (s.byteReg d) count carry → Completes i s (ByteRegister d z.1 z.2 s) := by
  rintro _ rfl
  exact ⟨_, by rw [hi, shiftByte_ok, finish_ok], byteRegister_set s d _ _⟩

theorem Completes.shiftLong (hd : pairCode d = true)
    (hi : exec i s = finish (shiftLong arithmetic d count carry s)) :
    ∀ z, z = shiftResult arithmetic (s.reg d ++ s.reg (d + 1)) count carry →
      Completes i s (LongRegister d z.1 z.2 s) := by
  rintro _ rfl
  exact ⟨_, by rw [hi, shiftLong_ok hd, finish_ok], longRegister_set s d _ _⟩

end

/-! RLDB and RRDB: the two digits of a byte, and the write of two byte registers. -/

theorem highDigit_append (x y : Nibble) : (x ++ y : Byte).extractLsb' 4 4 = x := BitVec.extractLsb'_append_eq_left

theorem lowDigit_append (x y : Nibble) : (x ++ y : Byte).extractLsb' 0 4 = y := BitVec.extractLsb'_append_eq_right

/-- `ByteRegister` for two: the first holds `x`, the second `y`, and nothing else changed but the flags `f` names. -/
def TwoByteRegisters (d r : RegCode) (x y : Byte) (f : FlagWrite) (s t : State) : Prop :=
  t.byteReg d = x ∧ t.byteReg r = y ∧ (∀ e, e ≠ d → e ≠ r → t.byteReg e = s.byteReg e) ∧
    OnlyChanged [byteHome d, byteHome r] [] f s t

section
variable {s : State} {d r : RegCode} (hdr : d ≠ r)
include hdr

theorem twoByteRegisters_set (x y : Byte) (f : FlagWrite) :
    TwoByteRegisters d r x y f s (((s.setByteReg d x).setByteReg r y).setFlags f) := by
  have hrest := (OnlyChanged.setByteReg s d x).trans (OnlyChanged.setByteReg _ r y)
  refine ⟨?_, ?_, fun e hd hr => ?_, hrest.withFlags f⟩
  · rw [State.setFlags_byteReg, State.byteReg_setByteReg_other _ _ hdr, State.byteReg_setByteReg_same]
  · rw [State.setFlags_byteReg, State.byteReg_setByteReg_same]
  · rw [State.setFlags_byteReg, State.byteReg_setByteReg_other _ _ hr, State.byteReg_setByteReg_other _ _ hd]

variable {a1 a0 b1 b0 : Nibble} (ha : s.byteReg d = a1 ++ a0) (hb : s.byteReg r = b1 ++ b0)
include ha hb

theorem completes_rldb :
    Completes (.rldb d r) s (TwoByteRegisters d r (a1 ++ b1) (b0 ++ a0) { z := (a1 ++ b1 : Byte) == 0 } s) := by
  refine ⟨_, ?_, twoByteRegisters_set hdr _ _ _⟩
  change execRldb d r s = _
  simp only [execRldb, requireApart_ok (beq_false_of_ne hdr), ha, hb, highDigit_append, lowDigit_append, bind,
    Except.bind, finish_ok]

theorem completes_rrdb :
    Completes (.rrdb d r) s (TwoByteRegisters d r (a1 ++ b0) (a0 ++ b1) { z := (a1 ++ b0 : Byte) == 0 } s) := by
  refine ⟨_, ?_, twoByteRegisters_set hdr _ _ _⟩
  change execRrdb d r s = _
  simp only [execRrdb, requireApart_ok (beq_false_of_ne hdr), ha, hb, highDigit_append, lowDigit_append, bind,
    Except.bind, finish_ok]

end

end Sys2Proof.Machine

section
open Sys2Proof Sys2Proof.Machine

/-- Settles O49: the rotates write their register and the flags, the digit rotates two byte registers and Z. -/
theorem rotatesWriteRegisterAndFlags : Obligations.RotatesWriteRegisterAndFlags := by
  intro s d
  refine ⟨fun two => ⟨?word, ?byte⟩, fun r a1 a0 b1 b0 hdr ha hb => ⟨?rldb, ?rrdb⟩⟩
  case word =>
    simp only [List.forall_mem_cons]
    exact ⟨.rotateWord rfl, .rotateWord rfl, .rotateWord rfl, .rotateWord rfl, List.forall_mem_nil _⟩
  case byte =>
    simp only [List.forall_mem_cons]
    exact ⟨.rotateByte rfl, .rotateByte rfl, .rotateByte rfl, .rotateByte rfl, List.forall_mem_nil _⟩
  case rldb => exact completes_rldb hdr ha hb
  case rrdb => exact completes_rrdb hdr ha hb

/-- Settles O50: each shift is the one of its size, by the count in the instruction or in the count register. -/
theorem shiftsWriteRegisterAndFlags : Obligations.ShiftsWriteRegisterAndFlags := by
  intro s d
  refine ⟨fun r => ⟨?dynamicWord, ?dynamicByte, fun hd => ?dynamicLong⟩,
    fun k => ⟨?staticWord, fun hd => ?staticLong⟩, fun k => ?staticByte⟩ <;>
    simp only [List.forall_mem_cons]
  case dynamicWord => exact ⟨.shiftWord rfl, .shiftWord rfl, List.forall_mem_nil _⟩
  case dynamicByte => exact ⟨.shiftByte rfl, .shiftByte rfl, List.forall_mem_nil _⟩
  case dynamicLong => exact ⟨.shiftLong hd rfl, .shiftLong hd rfl, List.forall_mem_nil _⟩
  case staticWord => exact ⟨.shiftWord rfl, .shiftWord rfl, .shiftWord rfl, .shiftWord rfl, List.forall_mem_nil _⟩
  case staticLong =>
    exact ⟨.shiftLong hd rfl, .shiftLong hd rfl, .shiftLong hd rfl, .shiftLong hd rfl, List.forall_mem_nil _⟩
  case staticByte => exact ⟨.shiftByte rfl, .shiftByte rfl, .shiftByte rfl, .shiftByte rfl, List.forall_mem_nil _⟩
end

/-! Block and string instructions (45_block_string.md): each meaning is one element operation of Block.lean, which
checks its registers, reads, perhaps stores, moves its pointers and ends the iteration. The four forms of an operation
differ in its first two arguments: up or down, once or repeating. -/

namespace Sys2Proof.Machine

open Sys2Proof

theorem overlaps3_eq_false {a b c : RegCode} (hab : a ≠ b) (hac : a ≠ c) (hbc : b ≠ c) : overlaps3 a b c = false := by
  rw [overlaps3, beq_false_of_ne hab, beq_false_of_ne hac, beq_false_of_ne hbc, Bool.or_self, Bool.or_self]

/-- A repeating form that ends when `stop` or at the count zero runs again when neither holds. -/
theorem again_of_stop_or_zero (repeats stop zero : Bool) :
    (repeats && !(stop || zero)) = (repeats && !stop && !zero) := by rw [Bool.not_or, Bool.and_assoc]

theorem forall_mem_four {α : Type} {Q : α → Prop} {a b c d : α} (ha : Q a) (hb : Q b) (hc : Q c) (hd : Q d) :
    ∀ e ∈ [a, b, c, d], Q e := by
  simp only [List.forall_mem_cons]
  exact ⟨ha, hb, hc, hd, List.forall_mem_nil Q⟩

theorem Completes.ofOk {i : Instr} {a : Attempt State} {t : State} {post : State → Prop} (hi : exec i s = finish a)
    (ha : a = .ok t) (ht : post t) : Completes i s post := ⟨t, by rw [hi, ha, finish_ok], ht⟩

/-! An iteration whose body left the registers alone, perhaps stored, and then moved its pointers. -/

section
variable {s t : State} {d p r : RegCode} {a b : Word} {bs : List Word} {flags : Bool → FlagWrite} {done : Bool → Bool}
  {repeats again : Bool} {f : FlagWrite}

theorem iterated_onePointer (hc : OnlyChanged [] bs {} s t) (hpr : p ≠ r) (hf : flags (s.reg r == 1) = f)
    (ha : (repeats && !done (s.reg r == 1)) = again) :
    Iterated r [(p, a)] bs f again s (endIteration repeats r flags done (t.setReg p a)) := by
  have hbody : OnlyChanged [p] bs {} s (t.setReg p a) := by simpa using hc.trans (OnlyChanged.setReg t p a)
  refine iterated_endIteration hbody ?_ (hbody.registers r (by simpa using hpr.symm)) hf ha
  simp [hpr]

theorem iterated_twoRegisters (hc : OnlyChanged [] bs {} s t) (hdp : d ≠ p) (hdr : d ≠ r) (hpr : p ≠ r)
    (hf : flags (s.reg r == 1) = f) (ha : (repeats && !done (s.reg r == 1)) = again) :
    Iterated r [(p, a), (d, b)] bs f again s (endIteration repeats r flags done ((t.setReg p a).setReg d b)) := by
  have hbody : OnlyChanged [p, d] bs {} s ((t.setReg p a).setReg d b) := by
    simpa using (hc.trans (OnlyChanged.setReg t p a)).trans (OnlyChanged.setReg _ d b)
  refine iterated_endIteration hbody ?_ (hbody.registers r (by simpa using ⟨hpr.symm, hdr.symm⟩)) hf ha
  simp [hpr, hdr, State.reg_setReg_other _ _ hdp.symm]

theorem Iterated.swap {x y : RegCode × Word} (h : Iterated r [x, y] bs f again s t) :
    Iterated r [y, x] bs f again s t := by
  obtain ⟨hcount, hregs, hrest⟩ := h
  exact ⟨hcount, fun z hz => hregs z (by simpa [or_comm] using hz),
    hrest.mono (by simp [or_comm]) (fun _ ha => ha)⟩

end

/-! Block compare (R463 to R478, R495). -/

/-- One iteration of a compare with the outcome `x`: the registers of `rs` moved, no byte changed, and a repeating form
runs again until the condition matches or the count is zero. -/
def Compared {n : Nat} (r : RegCode) (rs : List (RegCode × Word)) (x : Alu n) (cc : Cond) (repeats : Bool)
    (s t : State) : Prop :=
  Iterated r rs [] (blockCompareFlags x cc (s.reg r == 1))
    (repeats && !condHolds cc x.c x.z x.s x.v && s.reg r != 1) s t

section
variable {s : State} {d p r : RegCode} {cc : Cond}

section
variable {n : Nat} {x : Alu n} {a b : Word} {repeats : Bool} (hpr : p ≠ r)
include hpr

theorem compared_onePointer : Compared r [(p, a)] x cc repeats s
    (endIteration repeats r (blockCompareFlags x cc) (blockCompareDone x cc) (s.setReg p a)) :=
  iterated_onePointer (.refl s) hpr rfl (again_of_stop_or_zero ..)

theorem compared_twoPointers (hdp : d ≠ p) (hdr : d ≠ r) : Compared r [(p, a), (d, b)] x cc repeats s
    (endIteration repeats r (blockCompareFlags x cc) (blockCompareDone x cc) ((s.setReg p a).setReg d b)) :=
  iterated_twoRegisters (.refl s) hdp hdr hpr rfl (again_of_stop_or_zero ..)

end

variable (hp : p ≠ 0) (hpr : p ≠ r)
include hp hpr

theorem compareRegisterWord_iterates (hdp : d ≠ p) (hdr : d ≠ r) (heven : evenAddress (s.reg p) = true)
    (up repeats : Bool) ⦃i : Instr⦄ (hi : exec i s = finish (compareRegisterWord up repeats d p r cc s)) :
    Completes i s (Compared r [(p, stepPointer up 2 (s.reg p))]
      (subWith (s.reg d) (s.wordAt (dspace p) (s.reg p)) false) cc repeats s) := by
  refine .ofOk hi ?_ (compared_onePointer hpr)
  simp only [compareRegisterWord, requirePointer_ok hp, requireApart_ok (overlaps3_eq_false hdp hdr hpr),
    State.fetchWord, State.loadWord, State.readWord_even heven, bind, Except.bind]

theorem compareRegisterByte_iterates (hdp : byteHome d ≠ p) (hdr : byteHome d ≠ r)
    (up repeats : Bool) ⦃i : Instr⦄ (hi : exec i s = finish (compareRegisterByte up repeats d p r cc s)) :
    Completes i s (Compared r [(p, stepPointer up 1 (s.reg p))]
      (subWith (s.byteReg d) (s.readByte (dspace p) (s.reg p)) false) cc repeats s) := by
  refine .ofOk hi ?_ (compared_onePointer hpr)
  simp only [compareRegisterByte, requirePointer_ok hp, requireApart_ok (overlaps3_eq_false hdp hdr hpr),
    State.fetchByte, State.loadByte, bind, Except.bind]

variable (hd : d ≠ 0) (hdp : d ≠ p) (hdr : d ≠ r)
include hd hdp hdr

theorem compareStringWord_iterates (hpeven : evenAddress (s.reg p) = true) (hdeven : evenAddress (s.reg d) = true)
    (up repeats : Bool) ⦃i : Instr⦄ (hi : exec i s = finish (compareStringWord up repeats d p r cc s)) :
    Completes i s (Compared r [(p, stepPointer up 2 (s.reg p)), (d, stepPointer up 2 (s.reg d))]
      (subWith (s.wordAt (dspace d) (s.reg d)) (s.wordAt (dspace p) (s.reg p)) false) cc repeats s) := by
  refine .ofOk hi ?_ (compared_twoPointers hpr hdp hdr)
  simp only [compareStringWord, requirePointer_ok hd, requirePointer_ok hp,
    requireApart_ok (overlaps3_eq_false hdp hdr hpr), State.loadWord, State.readWord_even hpeven,
    State.readWord_even hdeven, bind, Except.bind]

theorem compareStringByte_iterates
    (up repeats : Bool) ⦃i : Instr⦄ (hi : exec i s = finish (compareStringByte up repeats d p r cc s)) :
    Completes i s (Compared r [(p, stepPointer up 1 (s.reg p)), (d, stepPointer up 1 (s.reg d))]
      (subWith (s.readByte (dspace d) (s.reg d)) (s.readByte (dspace p) (s.reg p)) false) cc repeats s) := by
  refine .ofOk hi ?_ (compared_twoPointers hpr hdp hdr)
  simp only [compareStringByte, requirePointer_ok hd, requirePointer_ok hp,
    requireApart_ok (overlaps3_eq_false hdp hdr hpr), State.loadByte, bind, Except.bind]

/-! Block load (R480 to R488). -/

theorem moveElementWord_iterates (hpeven : evenAddress (s.reg p) = true) (hdeven : evenAddress (s.reg d) = true)
    (up repeats : Bool) ⦃i : Instr⦄ (hi : exec i s = finish (moveElementWord up repeats d p r s)) :
    Completes i s fun t => t.wordAt (dspace d) (s.reg d) = s.wordAt (dspace p) (s.reg p) ∧
      Iterated r [(p, stepPointer up 2 (s.reg p)), (d, stepPointer up 2 (s.reg d))] [s.reg d, s.reg d + 1]
        (blockLoadFlags (s.reg r == 1)) (repeats && s.reg r != 1) s t := by
  refine .ofOk hi (t := endIteration repeats r blockLoadFlags id
    (((s.putWord (dspace d) (s.reg d) (s.wordAt (dspace p) (s.reg p))).setReg p (stepPointer up 2 (s.reg p))).setReg d
      (stepPointer up 2 (s.reg d)))) ?_ ⟨?_, iterated_twoRegisters (OnlyChanged.putWord ..) hdp hdr hpr rfl rfl⟩
  · simp only [moveElementWord, requirePointer_ok hd, requirePointer_ok hp,
      requireApart_ok (overlaps3_eq_false hdp hdr hpr), State.loadWord, State.readWord_even hpeven, State.storeWord,
      State.writeWord_even hdeven, bind, Except.bind]
  · rw [State.wordAt_congr (endIteration_mem ..), State.wordAt_setReg, State.wordAt_setReg, State.wordAt_putWord_same]

theorem moveElementByte_iterates
    (up repeats : Bool) ⦃i : Instr⦄ (hi : exec i s = finish (moveElementByte up repeats d p r s)) :
    Completes i s fun t => t.readByte (dspace d) (s.reg d) = s.readByte (dspace p) (s.reg p) ∧
      Iterated r [(p, stepPointer up 1 (s.reg p)), (d, stepPointer up 1 (s.reg d))] [s.reg d]
        (blockLoadFlags (s.reg r == 1)) (repeats && s.reg r != 1) s t := by
  refine .ofOk hi (t := endIteration repeats r blockLoadFlags id
    (((s.writeByte (dspace d) (s.reg d) (s.readByte (dspace p) (s.reg p))).setReg p
      (stepPointer up 1 (s.reg p))).setReg d (stepPointer up 1 (s.reg d)))) ?_ ⟨?_, iterated_twoRegisters (OnlyChanged.writeByte ..) hdp hdr hpr rfl rfl⟩
  · simp only [moveElementByte, requirePointer_ok hd, requirePointer_ok hp,
      requireApart_ok (overlaps3_eq_false hdp hdr hpr), State.loadByte, State.storeByte, bind, Except.bind]
  · rw [State.readByte_congr (endIteration_mem ..), State.readByte_setReg, State.readByte_setReg,
      State.readByte_writeByte_same]

/-! Translate (R489 to R493), and translate and test (R500 to R504). -/

theorem translateElement_iterates
    (up repeats : Bool) ⦃i : Instr⦄ (hi : exec i s = finish (translateElement up repeats d p r s)) :
    Completes i s fun t => t.readByte (dspace d) (s.reg d) = translated s d p ∧
      Iterated r [(d, stepPointer up 1 (s.reg d))] [s.reg d] { v := s.reg r == 1 } (repeats && s.reg r != 1) s t := by
  refine .ofOk hi (t := endIteration repeats r (fun zero => { v := zero }) id
    ((s.writeByte (dspace d) (s.reg d) (translated s d p)).setReg d (stepPointer up 1 (s.reg d)))) ?_
    ⟨?_, iterated_onePointer (OnlyChanged.writeByte ..) hdr rfl rfl⟩
  · simp only [translateElement, requirePointer_ok hd, requirePointer_ok hp,
      requireApart_ok (overlaps3_eq_false hdp hdr hpr), bind, Except.bind]
  · rw [State.readByte_congr (endIteration_mem ..), State.readByte_setReg, State.readByte_writeByte_same]

end

/-- RH1 is the high byte of R1: what a write of it puts in the word register. -/
theorem State.setByteReg_RH1 (s : State) (v : Byte) :
    s.setByteReg 0x1#4 v = s.setReg 1 (v ++ (s.reg 1).extractLsb' 0 8) := rfl

theorem translateTestElement_iterates {s : State} {p1 p2 r : RegCode} (h1 : p1 ≠ 0) (h2 : p2 ≠ 0) (h12 : p1 ≠ p2)
    (h1r : p1 ≠ r) (h2r : p2 ≠ r) (h11 : p1 ≠ 1) (h21 : p2 ≠ 1) (hr1 : r ≠ 1) (up repeats : Bool) ⦃i : Instr⦄
    (hi : exec i s = finish (translateTestElement up repeats p1 p2 r s)) :
    Completes i s (Iterated r
      [(p1, stepPointer up 1 (s.reg p1)), (1, translated s p1 p2 ++ (s.reg 1).extractLsb' 0 8)] []
      { z := translated s p1 p2 == 0, v := s.reg r == 1 }
      (repeats && !translateTestStops (translated s p1 p2) && s.reg r != 1) s) := by
  have hapart : (overlaps3 p1 p2 r || p1 == 1 || p2 == 1 || r == 1) = false := by
    rw [overlaps3_eq_false h12 h1r h2r, beq_false_of_ne h11, beq_false_of_ne h21, beq_false_of_ne hr1]
    rfl
  refine .ofOk hi (t := endIteration repeats r (fun zero => { z := translated s p1 p2 == 0, v := zero })
    (fun zero => translateTestStops (translated s p1 p2) || zero)
    ((s.setReg 1 (translated s p1 p2 ++ (s.reg 1).extractLsb' 0 8)).setReg p1 (stepPointer up 1 (s.reg p1)))) ?_
    (iterated_twoRegisters (.refl s) h11 h1r hr1.symm rfl (again_of_stop_or_zero ..)).swap
  simp only [translateTestElement, requirePointer_ok h1, requirePointer_ok h2, requireApart_ok hapart,
    State.setByteReg_RH1, bind, Except.bind]

end Sys2Proof.Machine

section
open Sys2Proof Sys2Proof.Machine

/-- Settles O51: each compare is one of the four operations, with a register or between strings, on words or bytes. -/
theorem blockCompareIterates : Obligations.BlockCompareIterates := by
  intro s d p r cc hp
  refine ⟨?registerWord, ?registerByte, ?stringWord, ?stringByte⟩
  case registerWord =>
    rintro hdp hdr hpr heven _ rfl _ rfl
    have iterates := compareRegisterWord_iterates (cc := cc) hp hpr hdp hdr heven
    exact forall_mem_four (iterates false false rfl) (iterates false true rfl) (iterates true false rfl)
      (iterates true true rfl)
  case registerByte =>
    rintro hdp hdr hpr _ rfl _ rfl
    have iterates := compareRegisterByte_iterates (s := s) (cc := cc) hp hpr hdp hdr
    exact forall_mem_four (iterates false false rfl) (iterates false true rfl) (iterates true false rfl)
      (iterates true true rfl)
  case stringWord =>
    rintro hd hdp hdr hpr hpeven hdeven _ rfl _ rfl
    have iterates := compareStringWord_iterates (cc := cc) hp hpr hd hdp hdr hpeven hdeven
    exact forall_mem_four (iterates false false rfl) (iterates false true rfl) (iterates true false rfl)
      (iterates true true rfl)
  case stringByte =>
    rintro hd hdp hdr hpr _ rfl _ rfl
    have iterates := compareStringByte_iterates (s := s) (cc := cc) hp hpr hd hdp hdr
    exact forall_mem_four (iterates false false rfl) (iterates false true rfl) (iterates true false rfl)
      (iterates true true rfl)

/-- Settles O52: each load is the move of a word or of a byte. -/
theorem blockLoadIterates : Obligations.BlockLoadIterates := by
  intro s d p r hp hd hdp hdr hpr
  refine ⟨fun hpeven hdeven => ?word, ?byte⟩
  case word =>
    have iterates := moveElementWord_iterates hp hpr hd hdp hdr hpeven hdeven
    exact forall_mem_four (iterates false false rfl) (iterates false true rfl) (iterates true false rfl)
      (iterates true true rfl)
  case byte =>
    have iterates := moveElementByte_iterates (s := s) hp hpr hd hdp hdr
    exact forall_mem_four (iterates false false rfl) (iterates false true rfl) (iterates true false rfl)
      (iterates true true rfl)

/-- Settles O53: the four translates are one operation, up or down, once or repeating. -/
theorem translateIterates : Obligations.TranslateIterates := by
  intro s d p r hp hd hdp hdr hpr
  have iterates := translateElement_iterates (s := s) hp hpr hd hdp hdr
  exact forall_mem_four (iterates false false rfl) (iterates false true rfl) (iterates true false rfl)
    (iterates true true rfl)

/-- Settles O54: the same for translate and test; the stop condition is the model's own `translateTestStops`. -/
theorem translateTestIterates : Obligations.TranslateTestIterates := by
  rintro s p1 p2 r h1 h2 h12 h1r h2r h11 h21 hr1 _ rfl _ rfl
  have iterates := translateTestElement_iterates (s := s) h1 h2 h12 h1r h2r h11 h21 hr1
  exact forall_mem_four (iterates false false rfl) (iterates false true rfl) (iterates true false rfl)
    (iterates true true rfl)
end

/-! Input and output in System mode (46_io.md): a read is the value the environment supplies, a write one output event.
The block forms are the four element operations of InputOutput.lean, whose eight forms differ in the I/O space, in up or
down, and in once or repeating. -/

namespace Sys2Proof.Machine

open Sys2Proof

section
variable {i : Instr} {s t : State} {post : State → Prop} (hs : s.sys = true)
include hs

theorem Completes.ofPrivileged (hi : exec i s = privileged i s (.next t)) (ht : post t) : Completes i s post :=
  ⟨t, hi.trans (privileged_system hs), ht⟩

theorem Completes.ofPrivilegedOk {a : Attempt State} (hi : exec i s = privileged i s (finish a)) (ha : a = .ok t)
    (ht : post t) : Completes i s post := .ofOk (hi.trans (privileged_system hs)) ha ht

end

/-- A fact of a block operation `op` on the pointer `a` to elements of `n` bytes holds of its eight forms, in the order of
the statements: both I/O spaces, down and up, once and repeating. -/
theorem forall_mem_blockIoForms {s : State} {Q : Instr × IoSpace × Word × Bool → Prop}
    {op : IoSpace → Bool → Bool → Attempt State} {i₁ i₂ i₃ i₄ i₅ i₆ i₇ i₈ : Instr} (a n : Word)
    (h : ∀ space up repeats ⦃i : Instr⦄, exec i s = privileged i s (finish (op space up repeats)) →
      Q (i, space, stepPointer up n a, repeats))
    (h₁ : exec i₁ s = privileged i₁ s (finish (op .std false false)))
    (h₂ : exec i₂ s = privileged i₂ s (finish (op .std false true)))
    (h₃ : exec i₃ s = privileged i₃ s (finish (op .std true false)))
    (h₄ : exec i₄ s = privileged i₄ s (finish (op .std true true)))
    (h₅ : exec i₅ s = privileged i₅ s (finish (op .special false false)))
    (h₆ : exec i₆ s = privileged i₆ s (finish (op .special false true)))
    (h₇ : exec i₇ s = privileged i₇ s (finish (op .special true false)))
    (h₈ : exec i₈ s = privileged i₈ s (finish (op .special true true))) :
    ∀ e ∈ [(i₁, IoSpace.std, a - n, false), (i₂, .std, a - n, true), (i₃, .std, a + n, false), (i₄, .std, a + n, true),
      (i₅, .special, a - n, false), (i₆, .special, a - n, true), (i₇, .special, a + n, false),
      (i₈, .special, a + n, true)], Q e := by
  simp only [List.forall_mem_cons]
  exact ⟨h _ _ _ h₁, h _ _ _ h₂, h _ _ _ h₃, h _ _ _ h₄, h _ _ _ h₅, h _ _ _ h₆, h _ _ _ h₇, h _ _ _ h₈,
    List.forall_mem_nil Q⟩

section
variable {s : State} {d p r : RegCode} (hs : s.sys = true) (hp : p ≠ 0) (hd : d ≠ 0) (hdp : d ≠ p) (hdr : d ≠ r)
  (hpr : p ≠ r)
include hs hp hd hdp hdr hpr

/-! Block input (R530 to R546). -/

theorem inputElementWord_iterates (heven : evenAddress (s.reg d) = true) (space : IoSpace) (up repeats : Bool)
    ⦃i : Instr⦄ (hi : exec i s = privileged i s (finish (inputElementWord space up repeats d p r s))) :
    Completes i s fun t => t.wordAt (dspace d) (s.reg d) = s.ioReadWord space (s.reg p) ∧
      Iterated r [(d, stepPointer up 2 (s.reg d))] [s.reg d, s.reg d + 1] (blockIoFlags (s.reg r == 1))
        (repeats && s.reg r != 1) s t := by
  refine .ofPrivilegedOk hs hi (t := endIteration repeats r blockIoFlags id
    ((s.putWord (dspace d) (s.reg d) (s.ioReadWord space (s.reg p))).setReg d (stepPointer up 2 (s.reg d)))) ?_
    ⟨?_, iterated_onePointer (OnlyChanged.putWord ..) hdr rfl rfl⟩
  · simp only [inputElementWord, requirePointer_ok hd, requirePointer_ok hp,
      requireApart_ok (overlaps3_eq_false hdp hdr hpr), State.storeWord, State.writeWord_even heven, bind, Except.bind]
  · rw [State.wordAt_congr (endIteration_mem ..), State.wordAt_setReg, State.wordAt_putWord_same]

theorem inputElementByte_iterates (space : IoSpace) (up repeats : Bool)
    ⦃i : Instr⦄ (hi : exec i s = privileged i s (finish (inputElementByte space up repeats d p r s))) :
    Completes i s fun t => t.readByte (dspace d) (s.reg d) = s.ioReadByte space (s.reg p) ∧
      Iterated r [(d, stepPointer up 1 (s.reg d))] [s.reg d] (blockIoFlags (s.reg r == 1))
        (repeats && s.reg r != 1) s t := by
  refine .ofPrivilegedOk hs hi (t := endIteration repeats r blockIoFlags id
    ((s.writeByte (dspace d) (s.reg d) (s.ioReadByte space (s.reg p))).setReg d (stepPointer up 1 (s.reg d)))) ?_
    ⟨?_, iterated_onePointer (OnlyChanged.writeByte ..) hdr rfl rfl⟩
  · simp only [inputElementByte, requirePointer_ok hd, requirePointer_ok hp,
      requireApart_ok (overlaps3_eq_false hdp hdr hpr), State.storeByte, bind, Except.bind]
  · rw [State.readByte_congr (endIteration_mem ..), State.readByte_setReg, State.readByte_writeByte_same]

/-! Block output (R550 to R566): the iteration starts from the state with the output event. -/

theorem outputElementWord_iterates (heven : evenAddress (s.reg p) = true) (space : IoSpace) (up repeats : Bool)
    ⦃i : Instr⦄ (hi : exec i s = privileged i s (finish (outputElementWord space up repeats d p r s))) :
    Completes i s (Iterated r [(p, stepPointer up 2 (s.reg p))] [] (blockIoFlags (s.reg r == 1))
      (repeats && s.reg r != 1) (s.ioWriteWord space (s.reg d) (s.wordAt (dspace p) (s.reg p)))) := by
  refine .ofPrivilegedOk hs hi ?_ (iterated_onePointer (done := id) (.refl _) hpr rfl rfl)
  simp only [outputElementWord, requirePointer_ok hd, requirePointer_ok hp,
    requireApart_ok (overlaps3_eq_false hdp hdr hpr), State.loadWord, State.readWord_even heven, bind, Except.bind]

theorem outputElementByte_iterates (space : IoSpace) (up repeats : Bool)
    ⦃i : Instr⦄ (hi : exec i s = privileged i s (finish (outputElementByte space up repeats d p r s))) :
    Completes i s (Iterated r [(p, stepPointer up 1 (s.reg p))] [] (blockIoFlags (s.reg r == 1))
      (repeats && s.reg r != 1) (s.ioWriteByte space (s.reg d) (s.readByte (dspace p) (s.reg p)))) := by
  refine .ofPrivilegedOk hs hi ?_ (iterated_onePointer (done := id) (.refl _) hpr rfl rfl)
  simp only [outputElementByte, requirePointer_ok hd, requirePointer_ok hp,
    requireApart_ok (overlaps3_eq_false hdp hdr hpr), State.loadByte, bind, Except.bind]

end

end Sys2Proof.Machine

section
open Sys2Proof Sys2Proof.Machine

/-- Settles O55: in System mode an input is a register write of what the port gives, an output an event. -/
theorem singleInputAndOutput : Obligations.SingleInputAndOutput := by
  intro s r hs
  refine ⟨fun p a ha => ?standard, fun a => ?special⟩
  case standard =>
    obtain rfl : a = s.portAddress p := by cases p <;> exact ha
    exact ⟨.ofPrivileged hs rfl (wordRegister_setReg ..), .ofPrivileged hs rfl (byteRegister_setByteReg ..),
      privileged_system hs, privileged_system hs⟩
  case special =>
    exact ⟨.ofPrivileged hs rfl (wordRegister_setReg ..), .ofPrivileged hs rfl (byteRegister_setByteReg ..),
      privileged_system hs, privileged_system hs⟩

/-- Settles O56: each block input is the input of a word or of a byte. -/
theorem blockInputIterates : Obligations.BlockInputIterates := by
  intro s d p r hs hp hd hdp hdr hpr
  refine ⟨fun heven => ?word, ?byte⟩
  case word =>
    exact forall_mem_blockIoForms (s.reg d) 2 (inputElementWord_iterates hs hp hd hdp hdr hpr heven)
      rfl rfl rfl rfl rfl rfl rfl rfl
  case byte =>
    exact forall_mem_blockIoForms (s.reg d) 1 (inputElementByte_iterates hs hp hd hdp hdr hpr)
      rfl rfl rfl rfl rfl rfl rfl rfl

/-- Settles O57: each block output is the output of a word or of a byte. -/
theorem blockOutputIterates : Obligations.BlockOutputIterates := by
  intro s d p r hs hp hd hdp hdr hpr
  refine ⟨fun heven => ?word, ?byte⟩
  case word =>
    exact forall_mem_blockIoForms (s.reg p) 2 (outputElementWord_iterates hs hp hd hdp hdr hpr heven)
      rfl rfl rfl rfl rfl rfl rfl rfl
  case byte =>
    exact forall_mem_blockIoForms (s.reg p) 1 (outputElementByte_iterates hs hp hd hdp hdr hpr)
      rfl rfl rfl rfl rfl rfl rfl rfl
end

/-! What was left unsettled: traps, interrupts and system instructions, the conditions, shifts and rotates as whole
operations, and what is refused. The proofs are elaborated one after another: in parallel, on top of the text before them,
they take more threads than the address space of the check holds. -/

section
set_option Elab.async false

/-! Traps, interrupts and the return (60_exceptions.md). A trap is an entry (`State.trapEntry_entered`) with the words and
offsets of its kind; an interrupt is the same after its acknowledge. -/

namespace Sys2Proof.Machine

open Sys2Proof Sys2Proof.Laws

/-! Traps. -/

/-- An instruction that means the trap of SC and the unimplemented instructions enters it (R705). -/
theorem Completes.unimplementedTrap {i : Instr} {s : State} {w : Word} (hi : exec i s = finish (s.unimplementedTrap w))
    (he : s.canEnter) : Completes i s (Entered w s.pc 0x000C#16 0x000E#16 s) := by
  obtain ⟨t, ht, hentered⟩ := State.trapEntry_entered w s.pc he (fcwOffset := 0x000C#16) (pcOffset := 0x000E#16) rfl rfl
  exact .ofOk hi ht hentered

/-- The only word of SC, its first byte and its operand. -/
theorem encode_sc (v : Byte) : encode (.sc v) = [0x7F#8 ++ v] := by
  rw [encode, word1, BitVec.append_assoc, extract_append_extract (k := 4) (n := 4) v]
  rfl

/-- The privileged instructions are the ones that check the mode before anything else (R706). -/
theorem exec_of_isPrivileged {i : Instr} (h : i.isPrivileged = true) (s : State) :
    ∃ body, exec i s = privileged i s body := by
  cases i
  case inp | inb | sin | sinb | out | outb | sout | soutb => exact ⟨_, rfl⟩
  case ind | indb | indr | indrb | ini | inib | inir | inirb | sind | sindb | sindr | sindrb | sini | sinib | sinir
    | sinirb => exact ⟨_, rfl⟩
  case outd | outdb | otdr | otdrb | outi | outib | otir | otirb | soutd | soutdb | sotdr | sotdrb | souti | soutib
    | sotir | sotirb => exact ⟨_, rfl⟩
  case di | ei | halt | iret | ldctlTo | ldctlFrom | ldps | mbit | mreq | mres | mset => exact ⟨_, rfl⟩
  all_goals cases h

/-- The saved pc, two bytes after the first word (R707). -/
theorem secondWordPc_eq (i : Instr) (pc : Word) :
    secondWordPc i pc = pc - BitVec.ofNat 16 (byteLength i) + 2 := by
  have hlen : byteLength i = 2 * (encode i).length := rfl
  obtain ⟨hone, -⟩ := encode_instructionLength i
  have hsplit : BitVec.ofNat 16 (byteLength i) = BitVec.ofNat 16 (byteLength i - 2) + 2 := by
    rw [show (2 : Word) = BitVec.ofNat 16 2 from rfl, ← BitVec.ofNat_add, Nat.sub_add_cancel (by omega)]
  rw [secondWordPc, hsplit]
  bv_omega

/-! Interrupts: what each acceptance leaves (R714 to R716), and which one a step accepts (R712). -/

/-- Twice a word is even, and with it the address of a vector. -/
theorem evenAddress_vector (a : Word) : evenAddress (0x001E#16 + 2 * a) = true :=
  evenAddress_add rfl (by simp [evenAddress, BitVec.getLsbD, Nat.testBit_zero])

section
variable {s : State} (h : s.canEnter)
include h

theorem State.takeNmi_entered : ∃ t, s.takeNmi = .ok t ∧
    Entered (Config.acknowledgeWord s.clock s.events .nonMaskable) s.pc 0x0014#16 0x0016#16
      { s with nmip := false, events := s.events ++ [.acknowledge .nonMaskable] } t :=
  State.trapEntry_entered (s := ({ s with nmip := false } : State).emit (.acknowledge .nonMaskable)) _ _ h rfl rfl

theorem State.takeNvi_entered : ∃ t, s.takeNvi = .ok t ∧
    Entered (Config.acknowledgeWord s.clock s.events .nonVectored) s.pc 0x0018#16 0x001A#16
      { s with events := s.events ++ [.acknowledge .nonVectored] } t :=
  State.trapEntry_entered (s := s.emit (.acknowledge .nonVectored)) _ _ h rfl rfl

theorem State.takeVi_entered : ∃ t, s.takeVi = .ok t ∧
    Entered (Config.acknowledgeWord s.clock s.events .vectored) s.pc 0x001C#16
      (0x001E#16 + 2 * (Config.acknowledgeWord s.clock s.events .vectored &&& 0x00FF#16))
      { s with events := s.events ++ [.acknowledge .vectored] } t :=
  State.trapEntry_entered (s := s.emit (.acknowledge .vectored)) _ _ h rfl (evenAddress_vector _)

end

section
variable {s : State} {now : Sample}

theorem State.interrupt_nmi (h : s.nmip = true) : s.interrupt now = some s.takeNmi := by
  simp [State.interrupt, h]

theorem State.interrupt_vi (h : s.nmip = false) (hvi : now.vi = true) (hvie : s.vie = true) :
    s.interrupt now = some s.takeVi := by
  simp [State.interrupt, h, hvi, hvie]

theorem State.interrupt_nvi (h : s.nmip = false) (hvi : ¬(now.vi = true ∧ s.vie = true)) (hnvi : now.nvi = true)
    (hnvie : s.nvie = true) : s.interrupt now = some s.takeNvi := by
  simp [State.interrupt, h, hvi, hnvi, hnvie]

/-- Without a pending NMI and with the other requests absent or disabled, nothing is accepted. -/
theorem State.interrupt_disabled (h : s.nmip = false) (hvi : now.vi = true → s.vie = false)
    (hnvi : now.nvi = true → s.nvie = false) : s.interrupt now = none := by
  have hv : (now.vi && s.vie) = false := by simpa using hvi
  have hn : (now.nvi && s.nvie) = false := by simpa using hnvi
  simp [State.interrupt, h, hv, hn]

end

section
variable {s : State} (hr : s.sampleInputs.1.reset = false)
include hr

/-- A step that accepts an interrupt is its entry. -/
theorem step_of_interrupt {entry : Attempt State} {post : State → Prop}
    (hi : s.sampleInputs.2.interrupt s.sampleInputs.1 = some entry) (he : ∃ t, entry = .ok t ∧ post t) :
    ∃ t, step s = .next t ∧ post t := by
  obtain ⟨t, rfl, ht⟩ := he
  exact ⟨t, by simp [step, hr, hi], ht⟩

/-- A step of a halted processor that accepts nothing only takes the sample. -/
theorem step_of_halted (hi : s.sampleInputs.2.interrupt s.sampleInputs.1 = none) (hh : s.halted = true) :
    step s = .next s.sampleInputs.2 := by
  simp [step, hr, hi, hh]

end

/-! The return (47_system.md R576), and the return from an entry. -/

theorem exec_iret {s : State} (hs : s.sys = true) (h : evenAddress s.regs[15] = true) :
    exec .iret s = .next { s with
      regs := s.regs.set 15 (s.regs[15] + 6)
      fcw := fcwMask (s.wordAt .stack (s.regs[15] + 2)), pc := s.wordAt .stack (s.regs[15] + 4) } := by
  have hreg : s.reg 0xF#4 = s.regs[15] := s.reg_system 0xF#4 hs
  have hrun : exec .iret s = finish s.trapReturn := privileged_system hs
  rw [hrun, State.trapReturn_eq (by rw [hreg, h]), hreg]
  simp [State.setReg, hs, State.loadStatus]

theorem Attempt.of_bind_ok {α β : Type} {m : Attempt α} {k : α → Attempt β} {b : β} (h : (m >>= k) = .ok b) :
    ∃ a, m = .ok a ∧ k a = .ok b := by
  cases m with
  | ok a => exact ⟨a, rfl, h⟩
  | error r => cases h

/-- A push leaves the Program Status Area Pointer. -/
theorem State.psap_of_pushWord {s t : State} {v : Word} (h : s.pushWord v = .ok t) : t.psap = s.psap := by
  obtain ⟨-, rfl⟩ := State.writeWord_ok h
  simp

/-- An entry that was made has read FCW and pc at even addresses. -/
theorem State.even_of_trapEntry {s t : State} {identifier savedPc fcwOffset pcOffset : Word}
    (h : s.trapEntry identifier savedPc fcwOffset pcOffset = .ok t) :
    evenAddress (s.psap + fcwOffset) = true ∧ evenAddress (s.psap + pcOffset) = true := by
  obtain ⟨s2, h2, h⟩ := Attempt.of_bind_ok h
  obtain ⟨s3, h3, h⟩ := Attempt.of_bind_ok h
  obtain ⟨s4, h4, h⟩ := Attempt.of_bind_ok h
  obtain ⟨f, hf, h⟩ := Attempt.of_bind_ok h
  obtain ⟨p, hp, -⟩ := Attempt.of_bind_ok h
  have hframe := State.psap_of_pushWord h2
  have hpsap : s4.psap = s.psap := (State.psap_of_pushWord h4).trans ((State.psap_of_pushWord h3).trans hframe)
  rw [← hpsap]
  exact ⟨(State.readWord_ok hf).1, (State.readWord_ok hp).1⟩

/-- The words of a frame, seen from its lowest address. -/
theorem frame_addresses (a : Word) : a - 6 + 2 = a - 4 ∧ a - 6 + 4 = a - 2 ∧ a - 6 + 6 = a := by
  refine ⟨?_, ?_, ?_⟩ <;> bv_omega

theorem evenAddress_sub_six (a : Word) : evenAddress (a - 6) = evenAddress a := by
  rw [← evenAddress_sub_four a, ← evenAddress_add_two (a - 6), (frame_addresses a).1]
  rfl

/-- The mask of the FCW sets SYS: a state with a masked FCW is in System mode. -/
theorem State.sys_of_masked {s : State} (h : fcwMask s.fcw = s.fcw) : s.sys = true := by
  have hbit := congrArg (fun x : Word => x.getLsbD 14) h
  rw [fcwMask_eq] at hbit
  simpa [State.sys] using hbit.symm

end Sys2Proof.Machine

section
open Sys2Proof Sys2Proof.Machine

/-- Settles O12, which is `State.trapEntry_entered`. -/
theorem entryPushesFrameAndLoadsStatus : Obligations.EntryPushesFrameAndLoadsStatus :=
  fun _ identifier savedPc _ _ h hf hp => State.trapEntry_entered identifier savedPc h hf hp

/-- Settles O13: SC and every trapped instruction mean the same trap, with the first word as the identifier. -/
theorem softwareTrapsEnter : Obligations.SoftwareTrapsEnter := by
  intro s he
  refine ⟨fun v => ⟨fun rest => ?decodes, ?systemCall⟩, fun w => ?trapped⟩
  case decodes =>
    have h := decode_sc v rest
    rwa [encode_sc] at h
  case systemCall =>
    refine .unimplementedTrap ?_ he
    rw [← show firstWord (.sc v) = 0x7F#8 ++ v by rw [firstWord, encode_sc]; rfl]
    rfl
  case trapped =>
    exact ⟨.unimplementedTrap rfl he, .unimplementedTrap rfl he, .unimplementedTrap rfl he, .unimplementedTrap rfl he,
      .unimplementedTrap rfl he, .unimplementedTrap rfl he⟩

/-- Settles O14: in Normal mode the check of the mode, which comes first, answers the trap. -/
theorem privilegedInstructionTraps : Obligations.PrivilegedInstructionTraps := by
  intro i s hi hs he
  obtain ⟨body, hbody⟩ := exec_of_isPrivileged hi s
  obtain ⟨t, ht, hentered⟩ := State.trapEntry_entered (firstWord i) (secondWordPc i s.pc) he
    (fcwOffset := 0x0008#16) (pcOffset := 0x000A#16) rfl rfl
  rw [← secondWordPc_eq]
  exact .ofOk (hbody.trans (privileged_normal hs)) ht hentered

/-- Settles O15: the latch is set by the sample or was set before, and the entry of a non-maskable interrupt follows. -/
theorem nonMaskableInterruptEnters : Obligations.NonMaskableInterruptEnters := by
  intro s he
  refine ⟨fun now later hin hreset hnmi => ?edge, fun hin hnmi => ?remembered⟩
  case edge =>
    have hsample := State.sampleInputs_cons hin
    refine step_of_interrupt (by rw [hsample]; exact hreset) (State.interrupt_nmi ?_) ?_
    · rw [hsample]; simpa using hnmi
    · rw [hsample]; exact State.takeNmi_entered he
  case remembered =>
    have hsample := State.sampleInputs_quiet hin
    refine step_of_interrupt (by rw [hsample]; rfl) (State.interrupt_nmi ?_) ?_
    · rw [hsample]; exact hnmi
    · rw [hsample]; exact State.takeNmi_entered he

/-- Settles O16: with the latch clear a sample gives the vectored request its turn, and then the non-vectored one. -/
theorem maskableInterruptsEnter : Obligations.MaskableInterruptsEnter := by
  intro s now later hin hreset hnmi hedge he
  have hsample : s.sampleInputs = (now, { s with inputs := later, clock := s.clock + 1 }) := by
    rw [State.sampleInputs_cons hin, hedge, Bool.or_false]
  refine ⟨fun hvi hvie => ?vectored, fun hvi hnvi hnvie => ?nonVectored⟩
  case vectored =>
    refine step_of_interrupt (by rw [hsample]; exact hreset) (by rw [hsample]; exact State.interrupt_vi hnmi hvi hvie) ?_
    exact State.takeVi_entered he
  case nonVectored =>
    refine step_of_interrupt (by rw [hsample]; exact hreset)
      (by rw [hsample]; exact State.interrupt_nvi hnmi hvi hnvi hnvie) ?_
    exact State.takeNvi_entered he

/-- Settles O17: nothing is accepted (`State.interrupt_disabled`), so a halted processor only takes the sample and
another runs the instruction at the pc. -/
theorem disabledRequestsAreNotAccepted : Obligations.DisabledRequestsAreNotAccepted := by
  intro s hnmi
  refine ⟨fun hin hhalt => ?quiet, fun now later hin hreset hedge hvi hnvi => ?masked⟩
  case quiet =>
    have hsample := State.sampleInputs_quiet hin
    rw [step_of_halted (by rw [hsample]; rfl) (by rw [hsample]; exact State.interrupt_quiet hnmi) hhalt, hsample]
  case masked =>
    have hsample : s.sampleInputs = (now, { s with inputs := later, clock := s.clock + 1 }) := by
      rw [State.sampleInputs_cons hin, hedge, Bool.or_false]
    have hr : s.sampleInputs.1.reset = false := by rw [hsample]; exact hreset
    have hi : s.sampleInputs.2.interrupt s.sampleInputs.1 = none := by
      rw [hsample]; exact State.interrupt_disabled hnmi hvi hnvi
    exact ⟨fun hhalt => by rw [step_of_halted hr hi hhalt, hsample],
      fun hhalt => by rw [step_of_undisturbed hr hi hhalt, hsample]⟩

/-- Settles O18, which is `exec_iret`. -/
theorem interruptReturnRestores : Obligations.InterruptReturnRestores := fun _ hs h => exec_iret hs h

/-- Settles O19: the return reads the two words that the entry pushed, and the FCW was masked before. -/
theorem entryThenReturnRestores : Obligations.EntryThenReturnRestores := by
  intro s t identifier savedPc fcwOffset pcOffset hinv hsp ht
  obtain ⟨hf, hp⟩ := State.even_of_trapEntry ht
  rw [State.trapEntry_eq hsp hf hp] at ht
  injection ht with ht
  have hsys : t.sys = true := State.sys_of_masked (by rw [← ht]; exact fcwMask_fcwMask _)
  have hsp' : t.regs[15] = s.regs[15] - 6 := by rw [← ht]; simp
  have heven : evenAddress t.regs[15] = true := by rw [hsp', evenAddress_sub_six, hsp]
  obtain ⟨hstatus, hpc, hrelease⟩ := frame_addresses s.regs[15]
  refine ⟨_, exec_iret hsys heven, ?fcw, ?pc, ?regs, ?nsp, ?psap, ?bytes⟩
  case fcw =>
    rw [hsp', hstatus, ← ht]
    exact (congrArg fcwMask (State.framed_savedStatus s identifier savedPc .stack)).trans hinv.status
  case pc =>
    rw [hsp', hpc, ← ht]
    exact State.framed_savedPc s identifier savedPc .stack
  case regs => rw [hsp', hrelease, ← ht]; simp
  case nsp => rw [← ht]; rfl
  case psap => rw [← ht]; rfl
  case bytes =>
    intro sp a ha
    rw [← ht]
    exact State.framed_readByte s identifier savedPc sp a ha
end

/-! CPU control (47_system.md): the enables, the control registers, the pin MOB and NOP. -/

namespace Sys2Proof.Machine

open Sys2Proof

/-! DI and EI clear and set the bits of a mask over VIE and NVIE (R571, R572). -/

theorem getLsbD_enableMask (vn : BitVec 2) (i : Nat) :
    (enableMask vn).getLsbD i = if i = 12 then vn.getLsbD 1 else if i = 11 then vn.getLsbD 0 else false := by
  by_cases hi : i < 16
  · unfold enableMask
    rw [BitVec.getLsbD_append, BitVec.getLsbD_append]
    interval_cases i <;> simp
  · rw [BitVec.getLsbD_of_ge _ i (by omega), if_neg (by omega), if_neg (by omega)]

theorem getLsbD_disable (w : Word) (vn : BitVec 2) (i : Nat) :
    (w &&& ~~~enableMask (~~~vn)).getLsbD i = if i = 12 then w.getLsbD 12 && vn.getLsbD 1
      else if i = 11 then w.getLsbD 11 && vn.getLsbD 0 else w.getLsbD i := by
  by_cases hi : i < 16
  · rw [BitVec.getLsbD_and, BitVec.getLsbD_not, getLsbD_enableMask]
    split
    · subst i; simp
    · split
      · subst i; simp
      · simp [hi]
  · rw [if_neg (by omega), if_neg (by omega), BitVec.getLsbD_of_ge _ i (by omega), BitVec.getLsbD_of_ge _ i (by omega)]

theorem getLsbD_enable (w : Word) (vn : BitVec 2) (i : Nat) :
    (w ||| enableMask (~~~vn)).getLsbD i = if i = 12 then w.getLsbD 12 || !vn.getLsbD 1
      else if i = 11 then w.getLsbD 11 || !vn.getLsbD 0 else w.getLsbD i := by
  rw [BitVec.getLsbD_or, getLsbD_enableMask]
  split
  · subst i; simp
  · split
    · subst i; simp
    · simp

/-- A write of the two enables and of no other bit of the FCW. -/
theorem enables_of_bits {s : State} {w : Word} {vie nvie : Bool}
    (h : ∀ i, w.getLsbD i = if i = 12 then vie else if i = 11 then nvie else s.fcw.getLsbD i) :
    OnlyStatus s { s with fcw := w } ∧ w.getLsbD 12 = vie ∧ w.getLsbD 11 = nvie ∧
      w &&& 0xE7FF#16 = s.fcw &&& 0xE7FF#16 := by
  refine ⟨rfl, h 12, h 11, BitVec.eq_of_getLsbD_eq fun i hi => ?_⟩
  rw [BitVec.getLsbD_and, BitVec.getLsbD_and, h]
  split
  · subst i; simp
  · split
    · subst i; simp
    · rfl

/-! The control registers. -/

/-- A word with a new low byte: the old high byte, and the new one below it. -/
theorem lowByte_replaced (w : Word) (b : Byte) : w.extractLsb' 8 8 ++ b = (w &&& 0xFF00#16) ||| (0x00#8 ++ b) := by
  apply BitVec.eq_of_getLsbD_eq
  intro i hi
  simp only [BitVec.getLsbD_append, BitVec.getLsbD_extractLsb', BitVec.getLsbD_or, BitVec.getLsbD_and]
  interval_cases i <;> simp

theorem exec_ldps {s : State} {m : Mem} (hs : s.sys = true) (h : evenAddress (s.memLoc m).2 = true) :
    exec (.ldps m) s = .next (s.loadStatus (s.wordAt (s.memLoc m).1 (s.memLoc m).2)
      (s.wordAt (s.memLoc m).1 ((s.memLoc m).2 + 2))) := by
  refine (privileged_system hs).trans ?_
  simp only [State.readWord_even h, State.readWord_even ((evenAddress_add_two _).trans h), bind, Except.bind, finish_ok]

/-! The pin MOB (R596). -/

theorem State.setMob_false (s : State) : s.setMob false =
    { s with mo := false, events := if s.mo then s.events ++ [.mob false] else s.events } := by
  cases s with
  | mk _ _ _ _ _ _ mo => cases mo <;> rfl

theorem State.setMob_true (s : State) : s.setMob true =
    { s with mo := true, events := if s.mo then s.events else s.events ++ [.mob true] } := by
  cases s with
  | mk _ _ _ _ _ _ mo => cases mo <;> rfl

/-! Driving the pin does not look at the flags or the registers, nor they at it. -/

theorem State.setFlags_setMob (s : State) (f : FlagWrite) (b : Bool) :
    (s.setFlags f).setMob b = (s.setMob b).setFlags f := by
  cases s with
  | mk _ _ _ _ _ _ mo => cases mo <;> cases b <;> rfl

theorem State.setReg_setMob (s : State) (r : RegCode) (v : Word) (b : Bool) :
    (s.setReg r v).setMob b = (s.setMob b).setReg r v := by
  have hsys : (s.setMob b).sys = s.sys := State.sys_eq (by simp)
  unfold State.setReg
  rw [hsys]
  split <;>
  · unfold State.setMob
    dsimp only
    split <;> rfl

/-! MREQ by what the two looks at MIB find (R598). -/

section
variable {s : State} (d : RegCode)

/-- MIB Low at first: not signalled. -/
theorem requestMicro_notSignalled (h : s.mib 0 = false) :
    requestMicro s d = (s.setMob true).setFlags { z := false, s := false } := by
  rw [requestMicro, if_pos h, State.setFlags_setMob]

section
variable (h : s.mib 0 = true)
include h

/-- MIB High, then Low: granted. -/
theorem requestMicro_granted (hlow : Config.mibLevel s.clock (s.setMob false).events 1 = false) :
    requestMicro s d = ((s.setMob false).setReg d 0x0000#16).setFlags { z := true, s := true } := by
  have hmib : State.mib ((s.setMob false).setReg d 0x0000#16) 1 = false := by
    rw [State.mib, State.setReg_clock, State.setReg_events, State.setMob_clock, hlow]
  rw [requestMicro, if_neg (by simp [h])]
  exact if_pos hmib

/-- MIB High both times: signalled in vain, and MOB goes High again. -/
theorem requestMicro_notGranted (hlow : Config.mibLevel s.clock (s.setMob false).events 1 = true) :
    requestMicro s d =
      (((s.setMob false).setMob true).setReg d 0x0000#16).setFlags { z := true, s := false } := by
  have hmib : State.mib ((s.setMob false).setReg d 0x0000#16) 1 = true := by
    rw [State.mib, State.setReg_clock, State.setReg_events, State.setMob_clock, hlow]
  rw [← State.setReg_setMob, ← State.setFlags_setMob, requestMicro, if_neg (by simp [h])]
  exact if_neg (by simp [hmib])

end

end

/-! NOP (R605). -/

/-- Bits 7:4 of NOP's word are a register field, whose codes but 0 are refused. -/
theorem decode_nopWord (n : Nibble) (rest : List Word) :
    decode ((0x8D#8 ++ n ++ 0x7#4) :: rest) = if n = 0 then .ok (.nop, rest) else .error .unassignedOpcode :=
  decode_mode10 (op := 0x0D#6) (n1 := n) (n0 := 0x7#4) (by decide) rest

theorem decode_nop (rest : List Word) : decode (0x8D07#16 :: rest) = .ok (.nop, rest) := decode_nopWord 0x0#4 rest

end Sys2Proof.Machine

section
open Sys2Proof Sys2Proof.Machine

/-- Settles O58: the privileged moves run in System mode; the FCW is written bit by bit, under its mask or by halves. -/
theorem controlRegisterMoves : Obligations.ControlRegisterMoves := by
  intro s hs
  refine ⟨fun vn => ⟨?disable, ?enable⟩, fun r => ?registers, fun m heven => ?status⟩
  case disable => exact .ofPrivileged hs rfl (enables_of_bits (getLsbD_disable s.fcw vn))
  case enable => exact .ofPrivileged hs rfl (enables_of_bits (getLsbD_enable s.fcw vn))
  case registers =>
    have loads (c : CtlReg) : Completes (.ldctlFrom r c) s (WordRegister r (s.control c) {} s) :=
      .ofPrivileged hs rfl (wordRegister_setReg s r (s.control c))
    refine ⟨?fcw, privileged_system hs, privileged_system hs, privileged_system hs, loads .fcw, loads .refresh,
      loads .psap, loads .nsp, ?flags, ⟨_, rfl, byteRegister_setByteReg ..⟩⟩
    case fcw =>
      rw [← fcwMask_eq]
      exact privileged_system hs
    case flags =>
      rw [← lowByte_replaced]
      rfl
  case status =>
    rw [← fcwMask_eq]
    exact exec_ldps hs heven

/-- Settles O59: MOB by `State.setMob_false` and `State.setMob_true`, MREQ by the two looks at MIB. -/
theorem haltNopAndMultiMicro : Obligations.HaltNopAndMultiMicro := by
  refine ⟨fun s hs => ?single, fun s d hs => ⟨fun hmib => ?notSignalled, fun hmib low hlow => ?signalled⟩⟩
  case single =>
    rw [← State.setMob_false, ← State.setMob_true]
    exact ⟨privileged_system hs, rfl, privileged_system hs, privileged_system hs,
      .ofPrivileged hs rfl (OnlyChanged.setFlags ..)⟩
  case notSignalled =>
    rw [← State.setMob_true]
    exact .ofPrivileged hs rfl (by rw [requestMicro_notSignalled d hmib]; exact OnlyChanged.setFlags ..)
  case signalled =>
    have hevents : (s.setMob false).events = low := by rw [State.setMob_false, hlow]
    have hdown : s.setMob false = { s with mo := false, events := low } := by rw [State.setMob_false, hlow]
    have hup : (s.setMob false).setMob true = { s with mo := true, events := low ++ [.mob true] } := by
      rw [State.setMob_true, hdown]; rfl
    rw [← hup, ← hdown, ← hevents]
    exact ⟨fun h => .ofPrivileged hs rfl (by rw [requestMicro_granted d hmib h]; exact wordRegister_set ..),
      fun h => .ofPrivileged hs rfl (by rw [requestMicro_notGranted d hmib h]; exact wordRegister_set ..)⟩

/-- Settles O60: NOP's word is decoded, and a step at it moves the pc past that word. -/
theorem nopOnlyAdvances : Obligations.NopOnlyAdvances := by
  refine ⟨decode_nop, fun n rest hn => (decode_nopWord n rest).trans (if_neg hn), fun _ => rfl,
    fun s hin hnmi hhalt hpc hword => ?step⟩
  have hsample := State.sampleInputs_quiet hin
  have hdecode : decode s.sampleInputs.2.instructionWords =
      .ok (.nop, [s.wordAt .program (s.pc + 2), s.wordAt .program (s.pc + 4)]) := by
    rw [State.sampleInputs_instructionWords, State.instructionWords, hword, decode_nop]
  rw [step_of_undisturbed (by rw [hsample]; rfl) (by rw [hsample]; exact State.interrupt_quiet hnmi) hhalt,
    runInstruction_of_decode (by simpa using hpc) hdecode, hsample]
  rfl
end

/-! Conditions after a compare, and rotates and shifts taken whole (30_encoding.md R125; 40_arithmetic.md R215;
44_rotate_shift.md R421, R435, R436). -/

namespace Sys2Proof.Machine

open Sys2Proof

/-! What the flags of a subtraction say of its operands. -/

section
variable {n : Nat} (a b : BitVec n)

theorem subWith_c_eq : (subWith a b false).c = decide (a.toNat < b.toNat) :=
  decide_eq_decide.mpr (by rw [Bool.toNat_false]; omega)

theorem subWith_z_eq : (subWith a b false).z = decide (a = b) := by
  have hz : (subWith a b false).z = ((subWith a b false).value == 0) := rfl
  have hsub : a - b = 0 ↔ a = b := sub_eq_zero
  rw [hz, subWith_value, Bool.eq_iff_iff, beq_iff_eq, hsub, decide_eq_true_iff]

/-- The sign is wrong exactly when the subtraction overflowed, so that both together tell the smaller number. -/
theorem subWith_s_xor_v (hn : 0 < n) :
    ((subWith a b false).s ^^ (subWith a b false).v) = decide (a.toInt < b.toInt) := by
  obtain ⟨half, hhalf⟩ := exists_half hn
  have hs : (subWith a b false).s = (subWith a b false).value.msb := rfl
  have ha := a.isLt
  have hb := b.isLt
  have hr : (subWith a b false).value.toNat = (2 ^ n - b.toNat + a.toNat) % 2 ^ n := by
    rw [subWith_value, BitVec.toNat_sub]
  rw [hs, subWith_v, Bool.eq_iff_iff, decide_eq_true_iff]
  generalize (subWith a b false).value = r at hr ⊢
  rw [hhalf] at ha hb hr
  have hwrap : r.toNat + b.toNat = a.toNat ∨ r.toNat + b.toNat = a.toNat + 2 * half := by
    rcases Nat.lt_or_ge a.toNat b.toNat with hlt | hge
    · rw [Nat.mod_eq_of_lt (by omega)] at hr
      omega
    · rw [Nat.mod_eq_sub_mod (by omega), Nat.mod_eq_of_lt (by omega)] at hr
      omega
  rcases toInt_by_sign hhalf a with ⟨sa, ra, ia⟩ | ⟨sa, ra, ia⟩ <;>
    rcases toInt_by_sign hhalf b with ⟨sb, rb, ib⟩ | ⟨sb, rb, ib⟩ <;>
    rcases toInt_by_sign hhalf r with ⟨sr, rr, ir⟩ | ⟨sr, rr, ir⟩ <;>
    simp only [sa, sb, sr, ia, ib] <;> simp <;> omega

end

/-- A condition on flags that were just written. -/
theorem State.cond_czsv (s : State) {n : Nat} (x : Alu n) (cc : Cond) :
    (s.setFlags x.czsv).cond cc = condHolds cc x.c x.z x.s x.v := by
  rw [State.cond, State.carry_setFlags, State.zero_setFlags, State.sign_setFlags, State.overflow_setFlags]
  rfl

/-- The conditions after a compare: the signed and the unsigned order, and equality. -/
theorem State.cond_compare (s : State) {n : Nat} (hn : 0 < n) (a b : BitVec n) (cc : Cond) :
    (s.setFlags (compareOp a b)).cond cc = condHolds cc (decide (a.toNat < b.toNat)) (decide (a = b))
      (decide (a.toInt < b.toInt) ^^ (subWith a b false).v) (subWith a b false).v := by
  have hs : (subWith a b false).s = (decide (a.toInt < b.toInt) ^^ (subWith a b false).v) := by
    rw [← subWith_s_xor_v a b hn, Bool.xor_assoc, Bool.xor_self, Bool.xor_false]
  rw [compareOp, State.cond_czsv, subWith_c_eq, subWith_z_eq, hs]

/-! Shifts step by step. -/

section
variable {n : Nat} {k : ShiftKind}

theorem Shifting.steps_succ (m : Nat) (t : Shifting n) :
    Shifting.steps k (m + 1) t = (Shifting.steps k m t).step k := by
  induction m generalizing t with
  | zero => rfl
  | succ m ih => exact ih (t.step k)

/-- When the values of the single steps are `y 0`, `y 1` and so on, the last bit out is that of the step before the last,
and the overflow says whether the sign changed between two of them. -/
theorem Shifting.steps_eq {x : BitVec n} {c : Bool} {y : Nat → BitVec n} (hstart : y 0 = x)
    (hstep : ∀ j c, shiftValue k (y j) c = y (j + 1)) (m : Nat) :
    Shifting.steps k (m + 1) { x := x, c := c, v := false } =
      { x := y (m + 1), c := shiftOut k (y m),
        v := (List.range (m + 1)).any fun j => (y (j + 1)).msb != (y j).msb } := by
  induction m with
  | zero => simp [Shifting.steps, Shifting.step, ← hstart, hstep]
  | succ m ih => rw [Shifting.steps_succ, ih, List.range_succ (n := m + 1), List.any_append]; simp [Shifting.step, hstep]

variable (x : BitVec n) (m : Nat)

theorem shiftBy_left (arithmetic : Bool) : shiftBy arithmetic x (m + 1) =
    { x := x <<< (m + 1), c := (x <<< m).msb,
      v := (List.range (m + 1)).any fun j => (x <<< (j + 1)).msb != (x <<< j).msb } := by
  have hcount : ((m : Int) + 1).natAbs = m + 1 := by omega
  rw [shiftBy, if_pos (by omega), hcount]
  exact Shifting.steps_eq (k := .left) (y := fun j => x <<< j) (BitVec.shiftLeft_zero x)
    (fun j _ => (BitVec.shiftLeft_add x j 1).symm) m

/-- An arithmetic right shift never changes the sign. -/
theorem shiftBy_rightArithmetic : shiftBy true x (-(m + 1)) =
    { x := x.sshiftRight (m + 1), c := (x.sshiftRight m).getLsbD 0, v := false } := by
  have hcount : (-((m : Int) + 1)).natAbs = m + 1 := by omega
  rw [shiftBy, if_neg (by omega), hcount]
  refine (Shifting.steps_eq (k := .rightArithmetic) (y := fun j => x.sshiftRight j) BitVec.sshiftRight_zero
    (fun _ _ => BitVec.sshiftRight_add.symm) m).trans ?_
  have hsign : (List.range (m + 1)).any (fun j => (x.sshiftRight (j + 1)).msb != (x.sshiftRight j).msb) = false := by
    simp only [BitVec.msb_sshiftRight, bne_self_eq_false, List.any_eq_false]
    simp
  rw [hsign]
  rfl

/-- A logical right shift clears the sign in its first step. -/
theorem shiftBy_rightLogical : shiftBy false x (-(m + 1)) = { x := x >>> (m + 1), c := x.getLsbD m, v := x.msb } := by
  have hcount : (-((m : Int) + 1)).natAbs = m + 1 := by omega
  rw [shiftBy, if_neg (by omega), hcount]
  refine (Shifting.steps_eq (k := .rightLogical) (y := fun j => x >>> j) (BitVec.ushiftRight_zero x)
    (fun j _ => (BitVec.shiftRight_add x j 1).symm) m).trans ?_
  have hsign : (List.range (m + 1)).any (fun j => (x >>> (j + 1)).msb != (x >>> j).msb) = x.msb := by
    rw [List.range_succ_eq_map, List.any_cons, List.any_map]
    simp [BitVec.msb_ushiftRight, Function.comp_def]
  rw [hsign]
  simp [shiftOut]

end

end Sys2Proof.Machine

section
open Sys2Proof Sys2Proof.Machine

/-- Settles O24: the table row by row, and the flags of the compare as the order of its operands
(`State.cond_compare`). -/
theorem conditionsTestFlagsAndCompare : Obligations.ConditionsTestFlagsAndCompare := by
  refine ⟨fun s => rfl, fun s d src v hv => ?_⟩
  refine .ofOk rfl (compareWord_ok hv) ?_
  have hle : (s.reg d).toInt ≤ v.toInt ↔ s.reg d = v ∨ (s.reg d).toInt < v.toInt := by
    rw [← BitVec.toInt_inj]; omega
  have hule : (s.reg d).toNat ≤ v.toNat ↔ (s.reg d).toNat < v.toNat ∨ s.reg d = v := by
    rw [← BitVec.toNat_inj]; omega
  simp only [State.cond_compare s (show 0 < 16 by omega), condHolds, Bool.xor_assoc, Bool.xor_self, Bool.xor_false]
  have hgt : v.toInt < (s.reg d).toInt ↔ ¬(s.reg d = v ∨ (s.reg d).toInt < v.toInt) := by rw [← hle, not_le]
  have hugt : v.toNat < (s.reg d).toNat ↔ ¬((s.reg d).toNat < v.toNat ∨ s.reg d = v) := by rw [← hule, not_le]
  have hge : v.toInt ≤ (s.reg d).toInt ↔ ¬(s.reg d).toInt < v.toInt := not_lt.symm
  have hnc : v.toNat ≤ (s.reg d).toNat ↔ ¬(s.reg d).toNat < v.toNat := not_lt.symm
  refine ⟨trivial, ?le, ?gt, ?ge, trivial, ?ule, ?ugt, ?nc, trivial, ?nz⟩
  case le => rw [decide_eq_decide.mpr hle, Bool.decide_or]
  case gt => rw [decide_eq_decide.mpr hgt, decide_not, Bool.decide_or]
  case ge => rw [decide_eq_decide.mpr hge, decide_not]
  case ule => rw [decide_eq_decide.mpr hule, Bool.decide_or]
  case ugt => rw [decide_eq_decide.mpr hugt, decide_not, Bool.decide_or, Bool.not_or]
  case nc => rw [decide_eq_decide.mpr hnc, decide_not]
  case nz => rw [← decide_not]

/-- Settles O28: the steps add up to the whole shift (`shiftBy_left` and the two right shifts); a zero count has its own
branch. -/
theorem shiftByWholeCount : Obligations.ShiftByWholeCount := by
  intro n x k carry hn
  have hpos : ((k : Int) + 1) ≠ 0 := by omega
  have hneg : (-((k : Int) + 1)) ≠ 0 := by omega
  refine ⟨fun arithmetic => ?left, ?rightArithmetic, ?rightLogical, fun _ => ⟨rfl, rfl⟩⟩
  case left => rw [shiftResult, if_neg hpos, shiftBy_left]; rfl
  case rightArithmetic =>
    rw [shiftResult, if_neg hneg, shiftBy_rightArithmetic, Shifting.flags, BitVec.msb_sshiftRight]
  case rightLogical =>
    rw [shiftResult, if_neg hneg, shiftBy_rightLogical, Shifting.flags, BitVec.msb_ushiftRight]
    rfl
end

/-! Rotates (44_rotate_shift.md R421): one step of each kind is a rotation by one, of the value or of carry and value, and
a rotation by two is two of them. -/

namespace Sys2Proof.Machine

open Sys2Proof

section
variable {n : Nat} (x : BitVec n) (c : Bool)

/-- What stands in bit 0 after the sign bit came around. -/
theorem ushiftRight_msb (hn : 0 < n) : x >>> (n - 1) = if x.msb then 1#n else 0#n := by
  apply BitVec.eq_of_getLsbD_eq
  intro i hi
  rw [BitVec.getLsbD_ushiftRight]
  rcases Nat.eq_zero_or_pos i with rfl | hpos
  · cases hx : x.msb <;> rw [Nat.add_zero, ← BitVec.msb_eq_getLsbD_last, hx] <;> simp [hn]
  · rw [BitVec.getLsbD_of_ge _ _ (by omega)]
    split <;> simp [BitVec.getLsbD_one]; omega

/-- What stands in the sign bit after bit 0 came around. -/
theorem shiftLeft_lsb (hn : 0 < n) : x <<< (n - 1) = if x.getLsbD 0 then 1#n <<< (n - 1) else 0#n := by
  apply BitVec.eq_of_getLsbD_eq
  intro i hi
  rw [BitVec.getLsbD_shiftLeft]
  rcases Nat.lt_or_ge i (n - 1) with hlow | htop
  · split <;> simp [hlow]
  · obtain rfl : i = n - 1 := by omega
    rw [Nat.sub_self]
    cases x.getLsbD 0 <;> simp [hn]

theorem shiftValue_rl (hn : 1 < n) : shiftValue .rl x c = x.rotateLeft 1 := by
  rw [BitVec.rotateLeft_def, Nat.mod_eq_of_lt hn, ushiftRight_msb x (by omega)]
  rfl

theorem shiftValue_rr (hn : 1 < n) : shiftValue .rr x c = x.rotateRight 1 := by
  rw [BitVec.rotateRight_def, Nat.mod_eq_of_lt hn, shiftLeft_lsb x (by omega)]
  rfl

/-! The last bit out of a plain rotate is the one that came around. -/

theorem shiftOut_rl (hn : 1 < n) : shiftOut .rl x = (shiftValue .rl x c).getLsbD 0 := by
  rw [shiftValue_rl x c hn, BitVec.getLsbD_rotateLeft_of_le hn]
  simp [shiftOut, BitVec.msb_eq_getLsbD_last]

theorem shiftOut_rr (hn : 1 < n) : shiftOut .rr x = (shiftValue .rr x c).msb := by
  have hpos : 0 < n := by omega
  rw [shiftValue_rr x c hn, BitVec.msb_eq_getLsbD_last, BitVec.getLsbD_rotateRight_of_lt hn]
  simp [shiftOut, hpos]

/-! Through C, one step is a rotation by one of the `n + 1` bits that carry and value make. -/

theorem getLsbD_shiftValue_rlc {i : Nat} (hi : i < n) :
    (shiftValue .rlc x c).getLsbD i = if i = 0 then c else x.getLsbD (i - 1) := by
  rw [shiftValue, BitVec.getLsbD_or, BitVec.getLsbD_shiftLeft]
  rcases Nat.eq_zero_or_pos i with rfl | hpos
  · cases c <;> simp [hi]
  · have hi1 : ¬i < 1 := by omega
    have hi0 : i ≠ 0 := by omega
    cases c <;> simp [hi, hi1, hi0]

theorem getLsbD_shiftValue_rrc {i : Nat} (hi : i < n) :
    (shiftValue .rrc x c).getLsbD i = if i = n - 1 then c else x.getLsbD (1 + i) := by
  rw [shiftValue, BitVec.getLsbD_or, BitVec.getLsbD_ushiftRight]
  rcases Nat.lt_or_ge i (n - 1) with hlow | htop
  · cases c <;> simp [hlow, hlow.ne]
  · obtain rfl : i = n - 1 := by omega
    rw [BitVec.getLsbD_of_ge x (1 + (n - 1)) (by omega)]
    cases c <;> simp [show 0 < n by omega]

theorem carry_shiftValue_rlc (hn : 0 < n) :
    BitVec.ofBool (shiftOut .rlc x) ++ shiftValue .rlc x c = (BitVec.ofBool c ++ x).rotateLeft 1 := by
  apply BitVec.eq_of_getLsbD_eq
  intro i hi
  have hcarry : (BitVec.ofBool c).getLsbD 0 = c := by simp
  have hout : (BitVec.ofBool (shiftOut .rlc x)).getLsbD 0 = x.getLsbD (n - 1) := by
    simp [shiftOut, BitVec.msb_eq_getLsbD_last]
  rw [BitVec.getLsbD_rotateLeft_of_le (by omega), BitVec.getLsbD_append, BitVec.getLsbD_append, BitVec.getLsbD_append]
  grind [getLsbD_shiftValue_rlc]

theorem carry_shiftValue_rrc (hn : 0 < n) :
    BitVec.ofBool (shiftOut .rrc x) ++ shiftValue .rrc x c = (BitVec.ofBool c ++ x).rotateRight 1 := by
  apply BitVec.eq_of_getLsbD_eq
  intro i hi
  have hcarry : (BitVec.ofBool c).getLsbD 0 = c := by simp
  have hout : (BitVec.ofBool (shiftOut .rrc x)).getLsbD 0 = x.getLsbD 0 := by simp [shiftOut]
  rw [BitVec.getLsbD_rotateRight_of_lt (by omega), BitVec.getLsbD_append, BitVec.getLsbD_append, BitVec.getLsbD_append]
  grind [getLsbD_shiftValue_rrc]

/-! Two rotations by one. -/

theorem rotateLeft_two (hn : 2 < n) : x.rotateLeft 2 = (x.rotateLeft 1).rotateLeft 1 := by
  apply BitVec.eq_of_getLsbD_eq
  intro i hi
  rw [BitVec.getLsbD_rotateLeft_of_le hn, BitVec.getLsbD_rotateLeft_of_le (by omega),
    BitVec.getLsbD_rotateLeft_of_le (by omega), BitVec.getLsbD_rotateLeft_of_le (by omega)]
  grind

theorem rotateRight_two (hn : 2 < n) : x.rotateRight 2 = (x.rotateRight 1).rotateRight 1 := by
  apply BitVec.eq_of_getLsbD_eq
  intro i hi
  rw [BitVec.getLsbD_rotateRight_of_lt hn, BitVec.getLsbD_rotateRight_of_lt (by omega),
    BitVec.getLsbD_rotateRight_of_lt (by omega), BitVec.getLsbD_rotateRight_of_lt (by omega)]
  grind

end

/-! A rotate by one is one step, and by two a second step on the value and carry of the first. -/

section
variable {n : Nat} (two : Bool) (x : BitVec n) (c : Bool)

theorem rotateBy_rl_x (hn : 2 < n) : (rotateBy .rl two x c).x = x.rotateLeft (if two then 2 else 1) := by
  have hstep (y : BitVec n) (c : Bool) := shiftValue_rl y c (by omega)
  cases two with
  | false => exact hstep x c
  | true => exact (hstep (shiftValue .rl x c) (shiftOut .rl x)).trans (by rw [hstep, ← rotateLeft_two x hn]; rfl)

theorem rotateBy_rr_x (hn : 2 < n) : (rotateBy .rr two x c).x = x.rotateRight (if two then 2 else 1) := by
  have hstep (y : BitVec n) (c : Bool) := shiftValue_rr y c (by omega)
  cases two with
  | false => exact hstep x c
  | true => exact (hstep (shiftValue .rr x c) (shiftOut .rr x)).trans (by rw [hstep, ← rotateRight_two x hn]; rfl)

theorem rotateBy_rl_c (hn : 1 < n) : (rotateBy .rl two x c).c = (rotateBy .rl two x c).x.getLsbD 0 := by
  cases two with
  | false => exact shiftOut_rl x c hn
  | true => exact shiftOut_rl (shiftValue .rl x c) (shiftOut .rl x) hn

theorem rotateBy_rr_c (hn : 1 < n) : (rotateBy .rr two x c).c = (rotateBy .rr two x c).x.msb := by
  cases two with
  | false => exact shiftOut_rr x c hn
  | true => exact shiftOut_rr (shiftValue .rr x c) (shiftOut .rr x) hn

theorem carry_rotateBy_rlc (hn : 1 < n) : BitVec.ofBool (rotateBy .rlc two x c).c ++ (rotateBy .rlc two x c).x =
    (BitVec.ofBool c ++ x).rotateLeft (if two then 2 else 1) := by
  have hstep (y : BitVec n) (c : Bool) := carry_shiftValue_rlc y c (by omega)
  cases two with
  | false => exact hstep x c
  | true => exact (hstep (shiftValue .rlc x c) (shiftOut .rlc x)).trans (by rw [hstep, ← rotateLeft_two _ (by omega)]; rfl)

theorem carry_rotateBy_rrc (hn : 1 < n) : BitVec.ofBool (rotateBy .rrc two x c).c ++ (rotateBy .rrc two x c).x =
    (BitVec.ofBool c ++ x).rotateRight (if two then 2 else 1) := by
  have hstep (y : BitVec n) (c : Bool) := carry_shiftValue_rrc y c (by omega)
  cases two with
  | false => exact hstep x c
  | true => exact (hstep (shiftValue .rrc x c) (shiftOut .rrc x)).trans (by rw [hstep, ← rotateRight_two _ (by omega)]; rfl)

/-- V says whether the sign changed in the first step or in the second. -/
theorem rotateBy_v (k : ShiftKind) : (rotateBy k two x c).v = ((rotateBy k false x c).x.msb != x.msb ||
    two && (rotateBy k true x c).x.msb != (rotateBy k false x c).x.msb) := by
  cases two with
  | false => exact (Bool.false_or _).trans (Bool.or_false _).symm
  | true => rfl

end

end Sys2Proof.Machine

section
open Sys2Proof Sys2Proof.Machine

/-- Settles O29: the facts of each kind of rotate, at the widths of a word and of a byte. -/
theorem rotateIsRotation : Obligations.RotateIsRotation := by
  intro two x y c
  have hword : 2 < 16 := by omega
  have hbyte : 2 < 8 := by omega
  exact ⟨rotateBy_rl_x two x c hword, rotateBy_rl_c two x c (by omega), rotateBy_rr_x two x c hword,
    rotateBy_rr_c two x c (by omega), carry_rotateBy_rlc two x c (by omega), carry_rotateBy_rrc two x c (by omega),
    rotateBy_rl_x two y c hbyte, rotateBy_rl_c two y c (by omega), rotateBy_rr_x two y c hbyte,
    rotateBy_rr_c two y c (by omega), carry_rotateBy_rlc two y c (by omega), carry_rotateBy_rrc two y c (by omega),
    fun k _ => ⟨rotateBy_v two x c k, rotateBy_v two y c k⟩⟩
end

/-! What the decoder refuses (30_encoding.md R111, R116, R142; 45_block_string.md R479): a first word that is not trapped
is read by its line of the decoder, which answers the refusal. -/

namespace Sys2Proof

/-! The readers of operands, when they refuse. -/

theorem blockPair_reserved {v : Word} (h8 : n0Of v ≠ 0x8#4) (h0 : n0Of v ≠ 0x0#4) (ws : List Word)
    (single repeating : RegCode → RegCode → Instr) :
    blockPair (v :: ws) single repeating = .error .reservedConditionNibble := by
  simp only [blockPair, takeWord]

/-- A first word as its two bytes: mode and opcode in the upper one. -/
theorem byte_append_eq_word1 (m : BitVec 2) (op : BitVec 6) (b : Byte) :
    ((m ++ op : Byte) ++ b : Word) = word1 m op (b.extractLsb' 4 4) (b.extractLsb' 0 4) := by
  conv_rhs => rw [word1, BitVec.append_assoc, extract_append_extract (k := 4) (n := 4) b]
  rfl

/-! Fixed zero bits and function codes without a meaning (R142 groups B and C). -/

/-- HALT has a zero low byte. -/
theorem decode_haltWord {b : Byte} (hb : b ≠ 0) (rest : List Word) :
    decode ((0x7A#8 ++ b) :: rest) = .error .unassignedOpcode := by
  have hsplit : ¬(b.extractLsb' 4 4 = 0 ∧ b.extractLsb' 0 4 = 0) := by
    rintro ⟨hhi, hlo⟩
    rw [← extract_append_extract (k := 4) (n := 4) b, hhi, hlo] at hb
    exact hb rfl
  rw [show (0x7A#8 ++ b : Word) = _ from byte_append_eq_word1 0b01#2 0x3A#6 b]
  exact (decode_mode01 trapKind_of_opcode rest).trans (if_neg hsplit)

/-- In the words of DI and EI only the low three bits of the low byte differ from zero. -/
theorem enables_of_zero : ∀ b : Byte, b.extractLsb' 3 5 ≠ 0 → b.extractLsb' 4 4 = 0x0#4 →
    (b.extractLsb' 0 4).extractLsb' 2 2 ≠ 0b00#2 ∧ (b.extractLsb' 0 4).extractLsb' 2 2 ≠ 0b01#2 := by decide

theorem decode_enableWord {b : Byte} (hb : b.extractLsb' 3 5 ≠ 0) (rest : List Word) :
    decode ((0x7C#8 ++ b) :: rest) = .error .unassignedOpcode := by
  rw [show (0x7C#8 ++ b : Word) = _ from byte_append_eq_word1 0b01#2 0x3C#6 b]
  refine (decode_mode01 trapKind_of_opcode rest).trans ?_
  by_cases hhi : b.extractLsb' 4 4 = 0x0#4
  · obtain ⟨hdi, hei⟩ := enables_of_zero b hb hhi
    refine (if_pos hhi).trans ?_
    split
    · contradiction
    · contradiction
    · rfl
  · exact if_neg hhi

/-- The sign extensions are three of sixteen function codes; these are the others. -/
theorem notExtend_mem : ∀ n0 : Nibble, n0 ≠ 0x0#4 → n0 ≠ 0x7#4 → n0 ≠ 0xA#4 →
    n0 ∈ [0x1#4, 0x2#4, 0x3#4, 0x4#4, 0x5#4, 0x6#4, 0x8#4, 0x9#4, 0xB#4, 0xC#4, 0xD#4, 0xE#4, 0xF#4] := by decide

theorem decode_extendWord {n0 : Nibble} (hb : n0 ≠ 0x0#4) (hl : n0 ≠ 0x7#4) (hw : n0 ≠ 0xA#4) (n1 : Nibble)
    (rest : List Word) : decode ((0xB1#8 ++ n1 ++ n0) :: rest) = .error .unassignedOpcode := by
  have hmem := notExtend_mem n0 hb hl hw
  refine (decode_mode10 (op := 0x31#6) (n1 := n1) (n0 := n0) trapKind_of_opcode rest).trans ?_
  fin_cases hmem <;> rfl

end Sys2Proof

section
open Sys2Proof Sys2Proof.Machine

/-- Settles O5, line by line of the decoder: a byte immediate, the last nibble of a block instruction, an address
register 0 (R142 group A), fixed zero bits (group B) and function codes (group C). -/
theorem decoderRefusesByName : Obligations.DecoderRefusesByName := by
  refine ⟨fun v rest hv => ⟨?immediate, ?memoryImmediate⟩, ?nibble, fun rest => ⟨?fields, ?stack, ?groupA, ?halt, ?enables,
    fun n1 hn1 => ⟨?control, ?nop, ?ret⟩, fun n1 => ⟨?ldbImmediate, ?extend⟩⟩⟩
  case immediate =>
    intro op hop d
    fin_cases hop <;> exact (decode_mode00 trapKind_of_opcode _).trans (if_neg hv)
  case memoryImmediate =>
    intro n0 hn0 r a
    fin_cases hn0 <;>
    exact ⟨fun hr => (decode_mode00 (by rfl) _).trans ((nonZero_of_ne hr _).trans (if_neg hv)),
        (decode_mode01 (by rfl) _).trans (if_neg hv)⟩
  case nibble =>
    intro op hop r v rest hr h8 h0
    refine ⟨fun n0 hn0 => ?_, fun n0 hn0 => ?_⟩
    · fin_cases hop <;> fin_cases hn0 <;>
      exact (decode_mode10 (by rfl) _).trans ((nonZero_of_ne hr _).trans (blockPair_reserved h8 h0 rest _ _))
    · fin_cases hop <;> fin_cases hn0 <;>
      exact (decode_mode00 (by rfl) _).trans ((nonZero_of_ne hr _).trans (blockPair_reserved h8 h0 rest _ _))
  case fields =>
    intro e he op hop n0
    fin_cases he
    · fin_cases hop <;> exact decode_mode00 trapKind_of_opcode rest
    · fin_cases hop <;> exact decode_mode01 trapKind_of_opcode rest
    · fin_cases hop <;> exact decode_mode10 trapKind_of_opcode rest
  case stack =>
    intro op hop n1
    fin_cases hop <;> exact (decode_mode00 trapKind_of_opcode rest).trans (ite_self _)
  case groupA =>
    intro e he op hop n0 hn0
    fin_cases he
    -- the first five rows of the list are of mode 00, the last two of mode 10
    iterate 5 (fin_cases hop <;> fin_cases hn0 <;> exact decode_mode00 (by rfl) rest)
    all_goals fin_cases hop <;> fin_cases hn0 <;> exact decode_mode10 (by rfl) rest
  case halt => exact fun b hb => decode_haltWord hb rest
  case enables => exact fun b hb => decode_enableWord hb rest
  case control =>
    intro n0 hn0
    fin_cases hn0 <;> exact (decode_mode01 (op := 0x3B#6) (n1 := n1) (by rfl) rest).trans (if_neg hn1)
  case nop => exact (decode_nopWord n1 rest).trans (if_neg hn1)
  case ret => exact fun n0 => (decode_mode10 (op := 0x1E#6) (n1 := n1) trapKind_of_opcode rest).trans (if_neg hn1)
  case ldbImmediate => exact decode_mode10 (op := 0x0C#6) (n1 := n1) (n0 := 0x5#4) (by rfl) rest
  case extend => exact fun n0 hb hl hw => decode_extendWord hb hl hw n1 rest
end

/-! Refusals (20_memory.md R67 under D4; 10_state.md R37, 70_reset_and_hazards.md R811 and 30_encoding.md R111 under D5, D6
and D15): an instruction stops with the refusal of the first operation in it that is refused. -/

namespace Sys2Proof.Machine

open Sys2Proof

/-! An attempt in steps. -/

section
variable {α β : Type} {x : Attempt α} {f : α → Attempt β} {why : Refusal}

theorem Attempt.bind_of_error (h : x = .error why) : x >>= f = .error why := by rw [h]; rfl

theorem Attempt.bind_of_ok {a : α} (h : x = .ok a) : x >>= f = f a := by rw [h]; rfl

/-- When the first step can only be refused for `why`, and the second always is, both together are. -/
theorem Attempt.bind_of_or (hx : x = .error why ∨ ∃ a, x = .ok a) (hf : ∀ a, f a = .error why) :
    x >>= f = .error why := by
  obtain h | ⟨a, h⟩ := hx
  · exact bind_of_error h
  · exact (bind_of_ok h).trans (hf a)

end

section
variable {i : Instr} {s : State} {a : Attempt State} {why : Refusal}

theorem Refuses.ofError (hi : exec i s = finish a) (ha : a = .error why) : Refuses i s why :=
  hi.trans (congrArg finish ha)

theorem Refuses.ofPrivilegedError (hs : s.sys = true) (hi : exec i s = privileged i s (finish a)) (ha : a = .error why) :
    Refuses i s why := .ofError (hi.trans (privileged_system hs)) ha

end

/-! The shapes of Operands.lean, when an operand is refused. -/

section
variable {s : State} {d : RegCode} {dst : Dst} {why : Refusal}

theorem binaryWord_error {op : Word → Word → Word × FlagWrite} {src : Src 16} (h : s.srcWord src = .error why) :
    binaryWord op d src s = .error why := by
  simp [binaryWord, State.fetchWord, h, bind, Except.bind]

theorem compareWord_error {op : Word → Word → FlagWrite} {src : Src 16} (h : s.srcWord src = .error why) :
    compareWord op d src s = .error why := by
  simp [compareWord, State.fetchWord, h, bind, Except.bind]

theorem modifyWord_error {op : Word → Word × FlagWrite} (h : s.dstWord dst = .error why) :
    modifyWord op dst s = .error why := Attempt.bind_of_error h

theorem examineWord_error {op : Word → FlagWrite} (h : s.dstWord dst = .error why) :
    examineWord op dst s = .error why := Attempt.bind_of_error h

theorem examineLong_error {op : Long → FlagWrite} (h : s.dstLong dst = .error why) :
    examineLong op dst s = .error why := Attempt.bind_of_error h

/-! With a pair as the first operand either operand may be refused: the pair for its code alone. -/

theorem State.pair_illegal (h : pairCode d = false) (s : State) : s.pair d = .error .illegalRegisterCode := by
  simp [State.pair, h]

theorem State.setPair_illegal (h : pairCode d = false) (s : State) (v : Long) :
    s.setPair d v = .error .illegalRegisterCode := by simp [State.setPair, h]

theorem State.quad_illegal (h : quadCode d = false) (s : State) : s.quad d = .error .illegalRegisterCode := by
  simp [State.quad, h]

theorem State.pair_or (s : State) (c : RegCode) : s.pair c = .error .illegalRegisterCode ∨ ∃ a, s.pair c = .ok a := by
  cases h : pairCode c with
  | false => exact .inl (State.pair_illegal h s)
  | true => exact .inr ⟨_, State.pair_legal h⟩

end

/-! Odd addresses. -/

theorem State.readWord_or (s : State) (sp : Space) (a : Word) :
    s.readWord sp a = .error .misalignedAccess ∨ ∃ v, s.readWord sp a = .ok v := by
  cases h : evenAddress a with
  | false => exact .inl (State.readWord_odd h s sp)
  | true => exact .inr ⟨_, State.readWord_even h⟩

theorem State.readLong_or (s : State) (sp : Space) (a : Word) :
    s.readLong sp a = .error .misalignedAccess ∨ ∃ v, s.readLong sp a = .ok v := by
  cases h : evenAddress a with
  | false => exact .inl (State.readLong_odd h s sp)
  | true => exact .inr ⟨_, State.readLong_even h⟩

section
variable {s : State} {d sp : RegCode} {m : Mem} (h : evenAddress (s.memLoc m).2 = false)
include h

/-- EX and LDM, memory at an odd address: their first access is refused. -/
theorem refuses_ex_odd : Refuses (.ex d (.mem m)) s .misalignedAccess :=
  .ofError rfl (Attempt.bind_of_error (State.readWord_odd h s _))

theorem refuses_ldm_odd (n : Nibble) : Refuses (.ldm d m n) s .misalignedAccess :=
  .ofError rfl (Attempt.bind_of_error (State.readWord_odd h s _))

theorem refuses_ldmStore_odd (n : Nibble) : Refuses (.ldmStore m d n) s .misalignedAccess :=
  .ofError rfl (Attempt.bind_of_error (State.writeWord_odd h s _ _))

theorem refuses_push_odd : Refuses (.push sp (.mem m)) s .misalignedAccess :=
  .ofError rfl (Attempt.bind_of_error (State.readWord_odd h s _))

theorem refuses_pushl_odd : Refuses (.pushl sp (.mem m)) s .misalignedAccess :=
  .ofError rfl (Attempt.bind_of_error (State.readLong_odd h s _))

/-- POP reads the stack first, which may be odd as well. -/
theorem refuses_pop_odd : Refuses (.pop (.mem m) sp) s .misalignedAccess :=
  .ofError rfl ((Attempt.bind_of_ok rfl).trans (Attempt.bind_of_or (State.readWord_or s _ _) fun v =>
    Attempt.bind_of_error (State.writeWord_odd h s _ v)))

theorem refuses_popl_odd : Refuses (.popl (.mem m) sp) s .misalignedAccess :=
  .ofError rfl ((Attempt.bind_of_ok rfl).trans (Attempt.bind_of_or (State.readLong_or s _ _) fun v =>
    Attempt.bind_of_error (State.writeLong_odd h s _ v)))

end

/-! Operations on a pair or a quadruple with such a source. -/

section
variable {s : State} {d : RegCode} {m : Mem} (h : evenAddress (s.memLoc m).2 = false)
include h

theorem binaryLong_odd {op : Long → Long → Long × FlagWrite} (hd : pairCode d = true) :
    binaryLong op d (.mem m) s = .error .misalignedAccess :=
  (Attempt.bind_of_ok (State.pair_legal hd)).trans (Attempt.bind_of_error (State.readLong_odd h s _))

theorem compareLong_odd {op : Long → Long → FlagWrite} (hd : pairCode d = true) :
    compareLong op d (.mem m) s = .error .misalignedAccess :=
  (Attempt.bind_of_ok (State.pair_legal hd)).trans (Attempt.bind_of_error (State.readLong_odd h s _))

/-- MULT and DIV. -/
theorem pairBySource_odd (hd : pairCode d = true) (k : Long → Word → Attempt State) :
    (do
      let a ← s.pair d
      requireApart (overlapsPair d (.mem m))
      let b ← s.srcWord (.mem m)
      k a b) = .error .misalignedAccess :=
  (Attempt.bind_of_ok (State.pair_legal hd)).trans
    ((Attempt.bind_of_ok rfl).trans (Attempt.bind_of_error (State.readWord_odd h s _)))

/-- MULTL and DIVL. -/
theorem quadBySource_odd (hd : quadCode d = true) (k : Quad → Long → Attempt State) :
    (do
      let a ← s.quad d
      requireApart (overlapsQuad d (.mem m))
      let b ← s.srcLong (.mem m)
      k a b) = .error .misalignedAccess :=
  (Attempt.bind_of_ok (State.quad_legal hd)).trans
    ((Attempt.bind_of_ok rfl).trans (Attempt.bind_of_error (State.readLong_odd h s _)))

end

/-! Loads and stores at a location. -/

theorem refuses_loadStore_odd {s : State} {d : RegCode} {dst : LdDst} {word : LdSrc 16} {long : LdSrc 32}
    (h : evenAddress (s.ldDstLoc dst).2 = false) (hword : s.ldSrcWord word = s.loadWord (s.ldDstLoc dst))
    (hlong : s.ldSrcLong long = s.loadLong (s.ldDstLoc dst)) :
    Refuses (.ld d word) s .misalignedAccess ∧ Refuses (.ldl d long) s .misalignedAccess ∧
      Refuses (.ldStore dst d) s .misalignedAccess ∧
      (pairCode d = true → Refuses (.ldlStore dst d) s .misalignedAccess) :=
  ⟨.ofError rfl (Attempt.bind_of_error (hword.trans (State.readWord_odd h s _))),
    .ofError rfl (Attempt.bind_of_error (hlong.trans (State.readLong_odd h s _))),
    .ofError rfl ((Attempt.bind_of_ok rfl).trans (State.writeWord_odd h s _ _)),
    fun hd => .ofError rfl ((Attempt.bind_of_ok (State.pair_legal hd)).trans (State.writeLong_odd h s _ _))⟩

/-! The stack of R15. -/

section
variable {s : State} (h : evenAddress (s.reg 0xF#4) = false)
include h

theorem State.pushWord_odd (v : Word) : s.pushWord v = .error .misalignedAccess :=
  State.writeWord_odd ((evenAddress_sub_two _).trans h) _ _ v

theorem State.popWord_odd : s.popWord = .error .misalignedAccess := Attempt.bind_of_error (State.readWord_odd h s _)

theorem callTo_odd (target : Word) : callTo s target = .error .misalignedAccess :=
  Attempt.bind_of_error (State.pushWord_odd h _)

theorem refuses_ret_odd {cc : Cond} (hcc : s.cond cc = true) : Refuses (.ret cc) s .misalignedAccess :=
  .ofError (if_pos hcc) (Attempt.bind_of_error (State.popWord_odd h))

theorem State.trapReturn_odd : s.trapReturn = .error .misalignedAccess :=
  Attempt.bind_of_error (State.readWord_odd ((evenAddress_add_two _).trans h) s _)

/-- An entry in System mode pushes on the stack that `h` speaks of. -/
theorem State.trapEntry_odd (hs : s.sys = true) (identifier savedPc fcwOffset pcOffset : Word) :
    s.trapEntry identifier savedPc fcwOffset pcOffset = .error .misalignedAccess := by
  have hstack : State.reg { s with fcw := s.fcw ||| 0x4000#16 } 0xF#4 = s.reg 0xF#4 := by
    rw [State.reg_system _ _ hs, State.reg_system _ _ (by simp [State.sys])]
  exact Attempt.bind_of_error (State.pushWord_odd (by rw [hstack, h]) _)

end

/-! The stack instructions, through any register. -/

section
variable {s : State} {sp d : RegCode} {dst : Dst} (h : evenAddress (s.reg sp) = false)
include h

theorem pushThrough_odd (v : Word) : pushThrough s sp v = .error .misalignedAccess :=
  State.writeWord_odd ((evenAddress_sub_two _).trans h) _ _ v

theorem refuses_pushl_oddStack (hv : s.dstLong dst = .error .misalignedAccess ∨ ∃ v, s.dstLong dst = .ok v) :
    Refuses (.pushl sp dst) s .misalignedAccess :=
  .ofError rfl (Attempt.bind_of_or hv (State.writeLong_odd ((evenAddress_sub_four _).trans h) _ _))

theorem refuses_push_oddStack (hv : s.dstWord dst = .error .misalignedAccess ∨ ∃ v, s.dstWord dst = .ok v) :
    Refuses (.push sp dst) s .misalignedAccess := .ofError rfl (Attempt.bind_of_or hv (pushThrough_odd h))

theorem refuses_pop_oddStack (hapart : popOverlaps dst sp = false) : Refuses (.pop dst sp) s .misalignedAccess :=
  .ofError rfl ((Attempt.bind_of_ok (requireApart_ok hapart)).trans (Attempt.bind_of_error (State.readWord_odd h s _)))

theorem refuses_popl_oddStack (hapart : poplOverlaps dst sp = false) : Refuses (.popl dst sp) s .misalignedAccess :=
  .ofError rfl ((Attempt.bind_of_ok (requireApart_ok hapart)).trans (Attempt.bind_of_error (State.readLong_odd h s _)))

end

theorem poplOverlaps_eq_false {sp d : RegCode} (h : sp ≠ d) (hnext : sp ≠ d + 1) : poplOverlaps (.reg d) sp = false :=
  Bool.or_eq_false_iff.mpr ⟨beq_false_of_ne h, beq_false_of_ne hnext⟩

/-! The word block instructions. -/

/-- Eight forms, of which four and four are alike. -/
theorem forall_mem_append_four {α : Type} {Q : α → Prop} {a₁ a₂ a₃ a₄ b₁ b₂ b₃ b₄ : α}
    (ha : ∀ e ∈ [a₁, a₂, a₃, a₄], Q e) (hb : ∀ e ∈ [b₁, b₂, b₃, b₄], Q e) :
    ∀ e ∈ [a₁, a₂, a₃, a₄, b₁, b₂, b₃, b₄], Q e :=
  List.forall_mem_append.mpr ⟨ha, hb⟩

section
variable {s : State} {d p r : RegCode} {cc : Cond} {up repeats : Bool} {space : IoSpace} (hp : p ≠ 0)
  (hapart : overlaps3 d p r = false)
include hp hapart

theorem compareRegisterWord_odd (h : evenAddress (s.reg p) = false) :
    compareRegisterWord up repeats d p r cc s = .error .misalignedAccess :=
  (Attempt.bind_of_ok (requirePointer_ok hp)).trans ((Attempt.bind_of_ok (requireApart_ok hapart)).trans
    ((Attempt.bind_of_ok rfl).trans (Attempt.bind_of_error (State.readWord_odd h s _))))

variable (hd : d ≠ 0)
include hd

/-- The checks that the operations with two pointers begin with. -/
theorem twoPointers_ok {α : Type} (rest : Attempt α) :
    (do
      requirePointer d
      requirePointer p
      requireApart (overlaps3 d p r)
      rest) = rest :=
  (Attempt.bind_of_ok (requirePointer_ok hd)).trans ((Attempt.bind_of_ok (requirePointer_ok hp)).trans
    (Attempt.bind_of_ok (requireApart_ok hapart)))

theorem compareStringWord_odd (h : evenAddress (s.reg p) = false ∨ evenAddress (s.reg d) = false) :
    compareStringWord up repeats d p r cc s = .error .misalignedAccess := by
  refine (twoPointers_ok hp hapart hd _).trans ?_
  obtain h | h := h
  · exact Attempt.bind_of_or (State.readWord_or s _ _) fun _ => Attempt.bind_of_error (State.readWord_odd h s _)
  · exact Attempt.bind_of_error (State.readWord_odd h s _)

theorem moveElementWord_odd (h : evenAddress (s.reg p) = false ∨ evenAddress (s.reg d) = false) :
    moveElementWord up repeats d p r s = .error .misalignedAccess := by
  refine (twoPointers_ok hp hapart hd _).trans ?_
  obtain h | h := h
  · exact Attempt.bind_of_error (State.readWord_odd h s _)
  · exact Attempt.bind_of_or (State.readWord_or s _ _) fun v => Attempt.bind_of_error (State.writeWord_odd h s _ v)

theorem inputElementWord_odd (h : evenAddress (s.reg d) = false) :
    inputElementWord space up repeats d p r s = .error .misalignedAccess :=
  (twoPointers_ok hp hapart hd _).trans (Attempt.bind_of_error (State.writeWord_odd h s _ _))

theorem outputElementWord_odd (h : evenAddress (s.reg p) = false) :
    outputElementWord space up repeats d p r s = .error .misalignedAccess :=
  (twoPointers_ok hp hapart hd _).trans (Attempt.bind_of_error (State.readWord_odd h s _))

end

end Sys2Proof.Machine

section
open Sys2Proof Sys2Proof.Machine

/-- Settles O22: operands in memory by the shape of the instruction, loads and stores by their location, the stack of
R15 by push and pop, the stack instructions by their stack register, and the block forms by their pointers. -/
theorem oddAddressesAreRefused : Obligations.OddAddressesAreRefused := by
  refine ⟨fun s d m n v h => ⟨?operand, fun hd => ?pair, fun hd => ?quad, fun hs => ?status⟩, fun s d m r x disp => ?location,
    fun s h => ⟨fun m => ?call, fun disp => ?calr, fun cc hcc => ?ret, fun hs => ⟨?iret, fun v => ?sc, fun w => ?trapped⟩⟩,
    fun s sp d m v h => ⟨?stack, fun hd => ?pushl, fun hne => ?pop, fun hne hne' => ?popl⟩,
    fun s d disp h => ?relative, fun s d p r cc hp hdp hdr hpr => ?block⟩
  case operand =>
    have hword : s.loadWord (s.memLoc m) = .error .misalignedAccess := State.readWord_odd h s _
    have hlong : s.loadLong (s.memLoc m) = .error .misalignedAccess := State.readLong_odd h s _
    have hstore (v : Word) : s.storeWord (s.memLoc m) v = .error .misalignedAccess := State.writeWord_odd h s _ v
    simp only [List.forall_mem_cons]
    exact ⟨.ofError rfl (binaryWord_error hword), .ofError rfl (binaryWord_error hword),
      .ofError rfl (binaryWord_error hword), .ofError rfl (binaryWord_error hword),
      .ofError rfl (binaryWord_error hword), .ofError rfl (compareWord_error hword),
      .ofError rfl (examineWord_error hword), .ofError rfl (modifyWord_error hword),
      .ofError rfl (modifyWord_error hword), .ofError rfl (modifyWord_error hword),
      .ofError rfl (modifyWord_error hword), .ofError rfl (examineWord_error hword),
      .ofError rfl (examineLong_error hlong), .ofError rfl (modifyWord_error hword), .ofError rfl (hstore _),
      .ofError rfl (examineWord_error hword), .ofError rfl (modifyWord_error hword),
      .ofError rfl (modifyWord_error hword), refuses_ex_odd h, .ofError rfl (hstore v), refuses_ldm_odd h n,
      refuses_ldmStore_odd h n, refuses_push_odd h, refuses_pushl_odd h, refuses_pop_odd h, refuses_popl_odd h,
      List.forall_mem_nil _⟩
  case pair =>
    simp only [List.forall_mem_cons]
    exact ⟨.ofError rfl (binaryLong_odd h hd), .ofError rfl (binaryLong_odd h hd), .ofError rfl (compareLong_odd h hd),
      .ofError rfl (pairBySource_odd h hd _), .ofError rfl (pairBySource_odd h hd _), List.forall_mem_nil _⟩
  case quad =>
    simp only [List.forall_mem_cons]
    exact ⟨.ofError rfl (quadBySource_odd h hd _), .ofError rfl (quadBySource_odd h hd _), List.forall_mem_nil _⟩
  case status => exact .ofPrivilegedError hs rfl (Attempt.bind_of_error (State.readWord_odd h s _))
  case location =>
    simp only [List.forall_mem_cons]
    exact ⟨fun h => refuses_loadStore_odd h rfl rfl, fun h => refuses_loadStore_odd h rfl rfl,
      fun h => refuses_loadStore_odd h rfl rfl, List.forall_mem_nil _⟩
  case call | calr => exact .ofError rfl (callTo_odd h _)
  case ret => exact refuses_ret_odd h hcc
  case iret => exact .ofPrivilegedError hs rfl (State.trapReturn_odd h)
  case sc => exact .ofError rfl (State.trapEntry_odd h hs ..)
  case trapped =>
    have hentry : s.unimplementedTrap w = .error .misalignedAccess := State.trapEntry_odd h hs ..
    simp only [List.forall_mem_cons]
    exact ⟨.ofError rfl hentry, .ofError rfl hentry, .ofError rfl hentry, .ofError rfl hentry, .ofError rfl hentry,
      .ofError rfl hentry, List.forall_mem_nil _⟩
  case stack =>
    simp only [List.forall_mem_cons]
    exact ⟨refuses_push_oddStack h (.inr ⟨_, rfl⟩), refuses_push_oddStack h (State.readWord_or ..),
      .ofError rfl (pushThrough_odd h v), refuses_pushl_oddStack h (State.readLong_or ..), refuses_pop_oddStack h rfl,
      refuses_popl_oddStack h rfl, List.forall_mem_nil _⟩
  case pushl => exact refuses_pushl_oddStack h (.inr ⟨_, State.pair_legal hd⟩)
  case pop => exact refuses_pop_oddStack h (beq_false_of_ne hne.symm)
  case popl => exact refuses_popl_oddStack h (poplOverlaps_eq_false hne hne')
  case relative =>
    exact ⟨.ofError rfl (Attempt.bind_of_error (State.readWord_odd h s _)),
      .ofError rfl ((Attempt.bind_of_ok rfl).trans (State.writeWord_odd h s _ _)),
      .ofError rfl (Attempt.bind_of_error (State.readLong_odd h s _)),
      fun hd => .ofError rfl ((Attempt.bind_of_ok (State.pair_legal hd)).trans (State.writeLong_odd h s _ _))⟩
  case block =>
    have hapart := overlaps3_eq_false hdp hdr hpr
    refine ⟨fun h => ?_, fun hd h => forall_mem_append_four ?_ ?_, fun hd hs h => ?_, fun hd hs h => ?_⟩ <;> intro e he
    · fin_cases he <;> exact .ofError rfl (compareRegisterWord_odd hp hapart h)
    · fin_cases he <;> exact .ofError rfl (moveElementWord_odd hp hapart hd h)
    · fin_cases he <;> exact .ofError rfl (compareStringWord_odd hp hapart hd h)
    · fin_cases he <;> exact .ofPrivilegedError hs rfl (inputElementWord_odd hp hapart hd h)
    · fin_cases he <;> exact .ofPrivilegedError hs rfl (outputElementWord_odd hp hapart hd h)
end

/-! Illegal fields. -/

namespace Sys2Proof.Machine

open Sys2Proof

/-! Codes that name no pair or no quadruple. -/

section
variable {s : State} {c d : RegCode}

theorem binaryLong_illegal {op : Long → Long → Long × FlagWrite} {src : Src 32} (h : pairCode d = false) :
    binaryLong op d src s = .error .illegalRegisterCode := Attempt.bind_of_error (State.pair_illegal h s)

theorem compareLong_illegal {op : Long → Long → FlagWrite} {src : Src 32} (h : pairCode d = false) :
    compareLong op d src s = .error .illegalRegisterCode := Attempt.bind_of_error (State.pair_illegal h s)

theorem binaryLong_illegalSource {op : Long → Long → Long × FlagWrite} (h : pairCode c = false) :
    binaryLong op d (.reg c) s = .error .illegalRegisterCode :=
  Attempt.bind_of_or (State.pair_or s d) fun _ => Attempt.bind_of_error (State.pair_illegal h s)

theorem compareLong_illegalSource {op : Long → Long → FlagWrite} (h : pairCode c = false) :
    compareLong op d (.reg c) s = .error .illegalRegisterCode :=
  Attempt.bind_of_or (State.pair_or s d) fun _ => Attempt.bind_of_error (State.pair_illegal h s)

theorem shiftLong_illegal {arithmetic : Bool} {count : Int} {carry : ZeroCountCarry} (h : pairCode d = false) :
    shiftLong arithmetic d count carry s = .error .illegalRegisterCode :=
  Attempt.bind_of_error (State.pair_illegal h s)

/-- A code that names no pair is not that of a pair of a quadruple. -/
theorem overlapsQuad_of_odd : ∀ c d : RegCode, pairCode c = false → quadCode d = true →
    overlapsQuad d (.reg c) = false := by decide

/-- MULTL and DIVL by such a source: the quadruple may be refused for its own code. -/
theorem quadBySource_illegal (h : pairCode c = false) (k : Quad → Long → Attempt State) :
    (do
      let a ← s.quad d
      requireApart (overlapsQuad d (.reg c))
      let b ← s.srcLong (.reg c)
      k a b) = .error .illegalRegisterCode := by
  cases hd : quadCode d with
  | false => exact Attempt.bind_of_error (State.quad_illegal hd s)
  | true =>
    exact (Attempt.bind_of_ok (State.quad_legal hd)).trans
      ((Attempt.bind_of_ok (requireApart_ok (overlapsQuad_of_odd c d h hd))).trans
        (Attempt.bind_of_error (State.pair_illegal h s)))

theorem refuses_ldl_illegal {src : LdSrc 32} {v : Long} (h : pairCode d = false) (hv : s.ldSrcLong src = .ok v) :
    Refuses (.ldl d src) s .illegalRegisterCode :=
  .ofError rfl ((Attempt.bind_of_ok hv).trans (State.setPair_illegal h s v))

theorem refuses_ldrl_illegal {disp : Word} (h : pairCode d = false) (heven : evenAddress (s.pc + disp) = true) :
    Refuses (.ldrl d disp) s .illegalRegisterCode :=
  .ofError rfl ((Attempt.bind_of_ok (State.readLong_even heven)).trans (State.setPair_illegal h s _))

theorem refuses_popl_illegal (h : pairCode d = false) (hapart : poplOverlaps (.reg d) c = false)
    (heven : evenAddress (s.reg c) = true) : Refuses (.popl (.reg d) c) s .illegalRegisterCode :=
  .ofError rfl ((Attempt.bind_of_ok (requireApart_ok hapart)).trans ((Attempt.bind_of_ok (State.readLong_even heven)).trans
    (Attempt.bind_of_error (State.setPair_illegal h s _))))

end

/-! Registers that overlap, and pointers in R0. -/

section
variable {α : Type} {d p r : RegCode} {overlap : Bool}

theorem requireApart_overlapping (h : overlap = true) (rest : Attempt α) :
    (do
      requireApart overlap
      rest) = .error .overlappingRegisters := Attempt.bind_of_error (if_pos h)

theorem requirePointer_zero : requirePointer 0 = .error .zeroPointerRegister := rfl

theorem overlaps_of_eq_or {c : RegCode} (h : r = d ∨ r = c) : (r == d || r == c) = true := by simpa using h

theorem overlaps3_eq_true (h : d = p ∨ d = r ∨ p = r) : overlaps3 d p r = true := by
  simpa [overlaps3, or_assoc] using h

theorem onePointer_overlapping (hp : p ≠ 0) (h : overlap = true) (rest : Attempt α) :
    (do
      requirePointer p
      requireApart overlap
      rest) = .error .overlappingRegisters :=
  (Attempt.bind_of_ok (requirePointer_ok hp)).trans (requireApart_overlapping h rest)

theorem twoPointers_overlapping (hd : d ≠ 0) (hp : p ≠ 0) (h : overlap = true) (rest : Attempt α) :
    (do
      requirePointer d
      requirePointer p
      requireApart overlap
      rest) = .error .overlappingRegisters :=
  (Attempt.bind_of_ok (requirePointer_ok hd)).trans (onePointer_overlapping hp h rest)

theorem twoPointers_zero (h : d = 0 ∨ p = 0) (rest : Attempt α) :
    (do
      requirePointer d
      requirePointer p
      rest) = .error .zeroPointerRegister := by
  by_cases hd : d = 0
  · exact Attempt.bind_of_error (hd ▸ requirePointer_zero)
  · obtain rfl := h.resolve_left hd
    exact (Attempt.bind_of_ok (requirePointer_ok hd)).trans (Attempt.bind_of_error requirePointer_zero)

end

section
variable {s : State} {d r : RegCode}

/-- MULT and DIV by a register of their pair. -/
theorem pairBySource_overlapping (hd : pairCode d = true) (h : r = d ∨ r = d + 1) (k : Long → Word → Attempt State) :
    (do
      let a ← s.pair d
      requireApart (overlapsPair d (.reg r))
      let b ← s.srcWord (.reg r)
      k a b) = .error .overlappingRegisters :=
  (Attempt.bind_of_ok (State.pair_legal hd)).trans (requireApart_overlapping (overlaps_of_eq_or h) _)

/-- MULTL and DIVL by a pair of their quadruple. -/
theorem quadBySource_overlapping (hd : quadCode d = true) (h : r = d ∨ r = d + 2) (k : Quad → Long → Attempt State) :
    (do
      let a ← s.quad d
      requireApart (overlapsQuad d (.reg r))
      let b ← s.srcLong (.reg r)
      k a b) = .error .overlappingRegisters :=
  (Attempt.bind_of_ok (State.quad_legal hd)).trans (requireApart_overlapping (overlaps_of_eq_or h) _)

end

end Sys2Proof.Machine

section
open Sys2Proof Sys2Proof.Machine

/-- Settles O23: a pair or quadruple is refused where it is read or written, an overlap and a pointer R0 by the checks
that come before anything else. -/
theorem illegalFieldsAreRefused : Obligations.IllegalFieldsAreRefused := by
  refine ⟨fun s d r src w count => ⟨fun h => ?pair, fun h => ?quad⟩, fun s d r hd h => ?pairOverlap,
    fun s d r hd h => ?quadOverlap, fun s d => ?sameRegister,
    fun s d p r cc => ⟨fun hp h => ?compareWord, fun hp h => ?compareByte, fun hd hp h => ?twoPointers,
      fun hd hp h => ?translateTest, fun hs hd hp h => ?blockIo⟩, fun s d p r cc h => ⟨?zeroPointer, fun hs => ?zeroPort⟩⟩
  case pair =>
    have hpair : s.pair d = .error .illegalRegisterCode := State.pair_illegal h s
    refine ⟨.ofError rfl (binaryLong_illegal h), .ofError rfl (binaryLong_illegal h), .ofError rfl (compareLong_illegal h),
      .ofError rfl (Attempt.bind_of_error hpair), .ofError rfl (Attempt.bind_of_error hpair),
      .ofError rfl (Attempt.bind_of_error hpair), .ofError rfl (examineLong_error hpair),
      .ofError rfl (Attempt.bind_of_error hpair), fun dst => .ofError rfl (Attempt.bind_of_error hpair),
      .ofError rfl (Attempt.bind_of_error hpair), refuses_ldrl_illegal h,
      fun hne hne' => refuses_popl_illegal h (poplOverlaps_eq_false hne hne'), ?source,
      fun source v => refuses_ldl_illegal h, .ofError rfl (shiftLong_illegal h), .ofError rfl (shiftLong_illegal h),
      .ofError rfl (shiftLong_illegal h), .ofError rfl (shiftLong_illegal h), .ofError rfl (shiftLong_illegal h),
      .ofError rfl (shiftLong_illegal h)⟩
    case source =>
      simp only [List.forall_mem_cons]
      exact ⟨.ofError rfl (binaryLong_illegalSource h), .ofError rfl (binaryLong_illegalSource h),
        .ofError rfl (compareLong_illegalSource h), .ofError rfl (Attempt.bind_of_error hpair),
        .ofError rfl (quadBySource_illegal h _), .ofError rfl (quadBySource_illegal h _), List.forall_mem_nil _⟩
  case quad =>
    have hquad : s.quad d = .error .illegalRegisterCode := State.quad_illegal h s
    exact ⟨.ofError rfl (Attempt.bind_of_error hquad), .ofError rfl (Attempt.bind_of_error hquad),
      .ofError rfl (Attempt.bind_of_error hquad)⟩
  case pairOverlap =>
    exact ⟨.ofError rfl (pairBySource_overlapping hd h _), .ofError rfl (pairBySource_overlapping hd h _),
      .ofError rfl (requireApart_overlapping (overlaps_of_eq_or h) _)⟩
  case quadOverlap =>
    exact ⟨.ofError rfl (quadBySource_overlapping hd h _), .ofError rfl (quadBySource_overlapping hd h _)⟩
  case sameRegister =>
    have hsame : (d == d) = true := beq_self_eq_true d
    exact ⟨.ofError rfl (requireApart_overlapping hsame _), .ofError rfl (requireApart_overlapping hsame _),
      .ofError rfl (requireApart_overlapping hsame _)⟩
  case compareWord | compareByte =>
    intro e he
    fin_cases he <;> exact .ofError rfl (onePointer_overlapping hp (overlaps3_eq_true h) _)
  case twoPointers =>
    intro e he
    fin_cases he <;> exact .ofError rfl (twoPointers_overlapping hd hp (overlaps3_eq_true h) _)
  case translateTest =>
    have hoverlap : (overlaps3 d p r || d == 1 || p == 1 || r == 1) = true := by simpa [overlaps3, or_assoc] using h
    intro e he
    fin_cases he <;> exact .ofError rfl (twoPointers_overlapping hd hp hoverlap _)
  case blockIo =>
    intro e he
    fin_cases he <;> exact .ofPrivilegedError hs rfl (twoPointers_overlapping hd hp (overlaps3_eq_true h) _)
  case zeroPointer =>
    intro e he
    fin_cases he <;> exact .ofError rfl (twoPointers_zero h _)
  case zeroPort =>
    intro e he
    fin_cases he <;> exact .ofPrivilegedError hs rfl (twoPointers_zero h _)
end

end
